-- ==== Sys2Proof/Word.lean ====
section
/-! DEFINITION. The word types of the Agley 9400 and their plainest arithmetic. -/

namespace Sys2Proof

/-- A 64-bit scalar, address or control-register value (R83, R92). -/
abbrev Word := BitVec 64

/-- A 32-bit instruction word, token payload or stored word (R26, R153). -/
abbrev Half := BitVec 32

/-- A byte of memory (R3). -/
abbrev Byte := BitVec 8

/-- All ones: -1 as a scalar (R94), "no value" of `thr.spawn` (R105), "unlimited" of a balance (R340). -/
def allOnes : Word := BitVec.allOnes 64

/-- The word with the natural number `n` in it, modulo 2^64 (R92). -/
def word (n : Nat) : Word := BitVec.ofNat 64 n

end Sys2Proof
end

