-- ==== Sys2Proof/Syntax.lean ====
section
/-! DEFINITION. The steps of the part: one constructor for each row of spec/opcode_table.json. -/

namespace Sys2Proof

/-- What a firmware image holds beside its two numbers (R407): its content, and the public key and signature that it
carries. -/
structure FwSealed where
  body : Nat := 0
  key : Nat := 0
  sig : Nat := 0
  deriving DecidableEq, Repr

/-- A firmware image (R407), with its version and rollback index. -/
structure FwImage extends FwSealed where
  version : Nat := 0
  index : Nat := 0
  deriving DecidableEq, Repr

/-- One step of the part, whole and indivisible (spec/95). The first constructors are control
instructions, with the fields of their words (R26 to R39); then the device's events, with the unit
they happen in; the fabric's element words (R43 to R46) stand among them in the table's order.
`Nat` arguments name units by number: `page` is a page instance, `part` a partition, `inst` an
instance number. -/
inductive Instr where
  /-- ADD (R93). Writes a + b, modulo 2^64, into sd. -/
  | add (d a b : BitVec 5)
  /-- SUB (R93). Writes a − b into sd. -/
  | sub (d a b : BitVec 5)
  /-- MUL (R93). Writes the low 64 bits of a × b into sd. -/
  | mul (d a b : BitVec 5)
  /-- MULH (R93). Writes the high 64 bits of the signed 128-bit product into sd. -/
  | mulh (d a b : BitVec 5)
  /-- DIV (R94). Signed division, truncating toward zero, with defined results for division by zero and for overflow. -/
  | div (d a b : BitVec 5)
  /-- REM (R94). Signed remainder, which takes the sign of a, with defined results for division by zero and for overflow. -/
  | rem (d a b : BitVec 5)
  /-- AND (R93). Bitwise AND of a and b. -/
  | and (d a b : BitVec 5)
  /-- OR (R93). Bitwise OR of a and b. -/
  | or (d a b : BitVec 5)
  /-- XOR (R93). Bitwise exclusive OR of a and b. -/
  | xor (d a b : BitVec 5)
  /-- ANDN (R93). Writes a AND NOT b. -/
  | andn (d a b : BitVec 5)
  /-- SHL (R93). Shifts a left by b[5:0], filling with zeros. -/
  | shl (d a b : BitVec 5)
  /-- SHR (R93). Shifts a right by b[5:0], filling with zeros. -/
  | shr (d a b : BitVec 5)
  /-- SAR (R93). Shifts a right by b[5:0], filling with the sign bit. -/
  | sar (d a b : BitVec 5)
  /-- MIN (R93). Signed minimum of a and b. -/
  | min (d a b : BitVec 5)
  /-- MAX (R93). Signed maximum of a and b. -/
  | max (d a b : BitVec 5)
  /-- MINU (R93). Unsigned minimum of a and b. -/
  | minu (d a b : BitVec 5)
  /-- MAXU (R93). Unsigned maximum of a and b. -/
  | maxu (d a b : BitVec 5)
  /-- CLZ (R93). Counts the leading zero bits of a, giving 64 when a = 0. -/
  | clz (d a : BitVec 5)
  /-- CTZ (R93). Counts the trailing zero bits of a, giving 64 when a = 0. -/
  | ctz (d a : BitVec 5)
  /-- POPC (R93). Counts the one bits of a. -/
  | popc (d a : BitVec 5)
  /-- SEXT_8 (R93). Sign-extends a[7:0]. -/
  | sext8 (d a : BitVec 5)
  /-- SEXT_16 (R93). Sign-extends a[15:0]. -/
  | sext16 (d a : BitVec 5)
  /-- SEXT_32 (R93). Sign-extends a[31:0]. -/
  | sext32 (d a : BitVec 5)
  /-- ZEXT_8 (R93). Zero-extends a[7:0]. -/
  | zext8 (d a : BitVec 5)
  /-- ZEXT_16 (R93). Zero-extends a[15:0]. -/
  | zext16 (d a : BitVec 5)
  /-- ZEXT_32 (R93). Zero-extends a[31:0]. -/
  | zext32 (d a : BitVec 5)
  /-- ADDI (R95). Writes s[a] + sext(imm16) into sd. -/
  | addi (d a : BitVec 5) (i : BitVec 16)
  /-- MOVI (R95). Writes sext(imm16) into sd. -/
  | movi (d : BitVec 5) (i : BitVec 16)
  /-- MOVHI (R95). Shifts sd left by 16 and ORs in imm16. -/
  | movhi (d : BitVec 5) (i : BitVec 16)
  /-- LEA (R96). Writes s[a] + (s[b] << sh) into sd. -/
  | lea (d a b : BitVec 5) (s : BitVec 3)
  /-- CMP_EQ (R97). Sets predicate pd when a = b. -/
  | cmpEq (p a b : BitVec 5)
  /-- CMP_NE (R97). Sets predicate pd when a ≠ b. -/
  | cmpNe (p a b : BitVec 5)
  /-- CMP_LT (R97). Sets predicate pd when a < b, signed. -/
  | cmpLt (p a b : BitVec 5)
  /-- CMP_GE (R97). Sets predicate pd when a ≥ b, signed. -/
  | cmpGe (p a b : BitVec 5)
  /-- CMP_LTU (R97). Sets predicate pd when a < b, unsigned. -/
  | cmpLtu (p a b : BitVec 5)
  /-- CMP_GEU (R97). Sets predicate pd when a ≥ b, unsigned. -/
  | cmpGeu (p a b : BitVec 5)
  /-- BFX (R98). Extracts an unsigned bit field of s[a] into sd. -/
  | bfx (d a : BitVec 5) (w p : BitVec 6)
  /-- BFI (R98). Inserts the low width bits of s[a] into sd at bit pos. -/
  | bfi (d a : BitVec 5) (w p : BitVec 6)
  /-- SEL (R99). Selects s[a] or s[b] by a predicate, which may be negated. -/
  | sel (d a b : BitVec 5) (n : BitVec 1) (p : BitVec 3)
  /-- BC (R100). Conditional PC-relative branch on a predicate, which may be negated. -/
  | bc (p : BitVec 3) (n : BitVec 1) (o : BitVec 22)
  /-- BR (R100). Unconditional PC-relative branch. -/
  | br (o : BitVec 22)
  /-- CALL (R101). Writes the return address into s31 and branches. -/
  | call (o : BitVec 22)
  /-- JMP (R102). Jumps to s[a], raising ALIGN when the target is misaligned. -/
  | jmp (a : BitVec 5)
  /-- RET (R102). Jumps to s31. -/
  | ret
  /-- LOOP (R103). Decrements s[a] and branches while the result is non-zero. -/
  | loop (a : BitVec 5) (i : BitVec 16)
  /-- THR_SPAWN (R105). Creates a thread in the lowest Free slot of the tile, or returns −1 when none is Free. -/
  | thrSpawn (d a b : BitVec 5)
  /-- THR_EXIT (R108). Retires the thread after its engine commands complete, publishing its stores and freeing its slot. -/
  | thrExit
  /-- THR_YIELD (R109). Gives up the issuing thread's round-robin turn. -/
  | thrYield
  /-- BAR (R110). Opens or joins the tile's barrier generation, and waits or releases the members. -/
  | bar (a : BitVec 5)
  /-- LD8 (R126). Loads 1 byte, zero-extended. -/
  | ld8 (d a : BitVec 5) (s : BitVec 2) (o : BitVec 11)
  /-- LD16 (R126). Loads 2 bytes, zero-extended. -/
  | ld16 (d a : BitVec 5) (s : BitVec 2) (o : BitVec 11)
  /-- LD32 (R126). Loads 4 bytes, zero-extended. -/
  | ld32 (d a : BitVec 5) (s : BitVec 2) (o : BitVec 11)
  /-- LD64 (R126). Loads 8 bytes. -/
  | ld64 (d a : BitVec 5) (s : BitVec 2) (o : BitVec 11)
  /-- LD8S (R126). Loads 1 byte, sign-extended. -/
  | ld8s (d a : BitVec 5) (s : BitVec 2) (o : BitVec 11)
  /-- LD16S (R126). Loads 2 bytes, sign-extended. -/
  | ld16s (d a : BitVec 5) (s : BitVec 2) (o : BitVec 11)
  /-- LD32S (R126). Loads 4 bytes, sign-extended. -/
  | ld32s (d a : BitVec 5) (s : BitVec 2) (o : BitVec 11)
  /-- ST8 (R126). Buffers a 1-byte store. -/
  | st8 (d a : BitVec 5) (s : BitVec 2) (o : BitVec 11)
  /-- ST16 (R126). Buffers a 2-byte store. -/
  | st16 (d a : BitVec 5) (s : BitVec 2) (o : BitVec 11)
  /-- ST32 (R126). Buffers a 4-byte store. -/
  | st32 (d a : BitVec 5) (s : BitVec 2) (o : BitVec 11)
  /-- ST64 (R126). Buffers an 8-byte store. -/
  | st64 (d a : BitVec 5) (s : BitVec 2) (o : BitVec 11)
  /-- LDP (R128). Loads 16 bytes into sd and sd+1. -/
  | ldp (d a : BitVec 5) (s : BitVec 2) (o : BitVec 13)
  /-- STP (R128). Buffers a 16-byte store from sd and sd+1. -/
  | stp (d a : BitVec 5) (s : BitVec 2) (o : BitVec 13)
  /-- AT_ADD (R130). Atomic add at the point of coherence, returning the old value. -/
  | atAdd (d a b : BitVec 5) (z s c : BitVec 2)
  /-- AT_AND (R130). Atomic AND, returning the old value. -/
  | atAnd (d a b : BitVec 5) (z s c : BitVec 2)
  /-- AT_OR (R130). Atomic OR, returning the old value. -/
  | atOr (d a b : BitVec 5) (z s c : BitVec 2)
  /-- AT_XOR (R130). Atomic exclusive OR, returning the old value. -/
  | atXor (d a b : BitVec 5) (z s c : BitVec 2)
  /-- AT_MIN (R130). Atomic signed minimum, returning the old value. -/
  | atMin (d a b : BitVec 5) (z s c : BitVec 2)
  /-- AT_MAX (R130). Atomic signed maximum, returning the old value. -/
  | atMax (d a b : BitVec 5) (z s c : BitVec 2)
  /-- AT_MINU (R130). Atomic unsigned minimum, returning the old value. -/
  | atMinu (d a b : BitVec 5) (z s c : BitVec 2)
  /-- AT_MAXU (R130). Atomic unsigned maximum, returning the old value. -/
  | atMaxu (d a b : BitVec 5) (z s c : BitVec 2)
  /-- AT_SWAP (R130). Atomic swap, returning the old value. -/
  | atSwap (d a b : BitVec 5) (z s c : BitVec 2)
  /-- AT_CAS (R130). Atomic compare-and-swap against the expected value in sd. -/
  | atCas (d a b : BitVec 5) (z s c : BitVec 2)
  /-- AT_LD (R130). Atomic load at the point of coherence, followed by an acquire. -/
  | atLd (d a : BitVec 5) (z s c : BitVec 2)
  /-- AT_ST (R130). Publishes all buffered stores, then atomically writes b. -/
  | atSt (d a b : BitVec 5) (z s c : BitVec 2)
  /-- PHASE_END (R133). Publishes every buffered store, waits for acceptance, and moves the snapshot point. -/
  | phaseEnd
  /-- PHASE_SYNC (R133). Waits for the thread's engine commands to complete, then acts as phase.end. -/
  | phaseSync
  /-- PUB (R134). Publishes the buffered stores that fall in a virtual range, or all of them when s[b] = 0. -/
  | pub (a b : BitVec 5)
  /-- FENCE_E (R135). Holds the thread's later engine commands until its earlier ones complete. -/
  | fenceE
  /-- PF (R136). Prefetches a .g line into the data cache; it never traps. -/
  | pf (a : BitVec 5)
  /-- SPILL (R139). Writes a register group to the C-store spill stack and moves PTR down. -/
  | spill (d : BitVec 5) (n : BitVec 6)
  /-- FILL (R139). Reads a register group from the spill stack and moves PTR up. -/
  | fill (d : BitVec 5) (n : BitVec 6)
  /-- WAIT_EQ (R137). Waits until a word at its point of coherence equals the comparand, then acquires. -/
  | waitEq (d a : BitVec 5) (s z : BitVec 2) (o : BitVec 11)
  /-- WAIT_NE (R137). Waits until a word at its point of coherence differs from the comparand, then acquires. -/
  | waitNe (d a : BitVec 5) (s z : BitVec 2) (o : BitVec 11)
  /-- RING_DEF (R192). Binds a ring handle to a checked ring descriptor. -/
  | ringDef (h a : BitVec 5)
  /-- RING_WAIT (R193). Waits until enough filled slots are available, then acquires. -/
  | ringWait (h a : BitVec 5)
  /-- RING_ROOM (R193). Waits until enough free slots are available. -/
  | ringRoom (h a : BitVec 5)
  /-- RING_ADV (R194). Takes and applies, or defers, n consumed slots. -/
  | ringAdv (h a : BitVec 5)
  /-- RING_POST (R194). Takes and posts, or defers, n produced slots, releasing their payload. -/
  | ringPost (h a : BitVec 5)
  /-- RING_SLOT (R195). Writes the address of slot Head + s[b]. -/
  | ringSlot (d h b : BitVec 5)
  /-- RING_STAT (R196). Writes the status word of a handle. -/
  | ringStat (d h : BitVec 5)
  /-- MX_CFG (R273). Sets the thread's matrix mode, default formats and C-store column allocation. -/
  | mxCfg (a : BitVec 5) (x : Half)
  /-- MX_LDB (R274). Loads all four B groups of a W-store image into one macro. -/
  | mxLdb (a b : BitVec 5) (m : BitVec 1)
  /-- MX_LDB_GROUPS (R274). Loads a range of B groups into one macro. -/
  | mxLdbGroups (a b : BitVec 5) (m : BitVec 1) (x : Half)
  /-- MX_RUN_RING (R275). Feeds A rows from ring slots through the macros into the accumulators. -/
  | mxRunRing (h : BitVec 4) (b : BitVec 5) (c : BitVec 1) (p : BitVec 2)
  /-- MX_RUN_ASTORE (R275). Feeds packed A rows from A-store through the macros. -/
  | mxRunAstore (a b : BitVec 5) (c : BitVec 1) (p : BitVec 2)
  /-- MX_RUN_STRIDE (R275). Feeds strided A rows from A-store through the macros. -/
  | mxRunStride (a b : BitVec 5) (c : BitVec 1) (p : BitVec 2) (x : Half)
  /-- MX_CLR (R276). Writes +0 into every accumulator of the window. -/
  | mxClr (b : BitVec 5)
  /-- MX_OUT_RING (R277). Writes accumulator rows into ring slots as F32 blocks of scale 0. -/
  | mxOutRing (h : BitVec 4) (b : BitVec 5) (c : BitVec 1)
  /-- MX_OUT_ASTORE (R277). Writes accumulator rows into A-store as F32 blocks of scale 0. -/
  | mxOutAstore (a b : BitVec 5) (c : BitVec 1)
  /-- MX_OUT_RING_EXT (R277). Writes accumulator rows into ring slots with a given format, scale and rounding mode. -/
  | mxOutRingExt (h : BitVec 4) (b : BitVec 5) (c : BitVec 1) (x : Half)
  /-- MX_OUT_ASTORE_EXT (R277). Writes accumulator rows into A-store with a given format, scale and rounding mode. -/
  | mxOutAstoreExt (a b : BitVec 5) (c : BitVec 1) (x : Half)
  /-- MX_WAIT (R278). Waits until the thread's earlier matrix commands have completed, then acquires. -/
  | mxWait
  /-- MX_COMMAND_PERFORM (R279). The matrix unit performs an accepted command: conversion, chunk updates or output writes. -/
  | mxCommandPerform (tile thread : Nat)
  /-- SP_CFG (R301). Sets the thread's Skink allocation, format and rounding mode, clearing newly allocated resources. -/
  | spCfg (a : BitVec 5) (x : Half)
  /-- SP_SHAPE (R302). Checks and writes a shape register. -/
  | spShape (a b : BitVec 5) (y : BitVec 6) (x : Half)
  /-- SP_LD_ASTORE (R303). Fills bank words from A-store blocks. -/
  | spLdAstore (a b : BitVec 5) (k : BitVec 4)
  /-- SP_LD_RING (R303). Fills bank words from one ring slot. -/
  | spLdRing (h : BitVec 4) (b : BitVec 5) (k : BitVec 4)
  /-- SP_LD_RECORD (R303). Fills bank words from the tensor that a shape record describes. -/
  | spLdRecord (a b : BitVec 5) (k : BitVec 4)
  /-- SP_ST_ASTORE (R304). Writes bank words to A-store as described blocks in the captured format. -/
  | spStAstore (a b : BitVec 5) (k : BitVec 4)
  /-- SP_ST_RING (R304). Writes bank words into one ring slot. -/
  | spStRing (h : BitVec 4) (b : BitVec 5) (k : BitVec 4)
  /-- SP_ST_EXT (R304). Writes bank words to A-store or a ring slot with a given format, scale and rounding mode. -/
  | spStExt (r : BitVec 1) (h : BitVec 4) (a b : BitVec 5) (k : BitVec 4) (x : Half)
  /-- SP_ST_RECORD (R304). Writes bank words to the tensor that a shape record describes. -/
  | spStRecord (a b : BitVec 5) (k : BitVec 4) (x : Half)
  /-- SP_UP (R295). Runs an upward pass, writing the root output and the saved node values. -/
  | spUp (a b : BitVec 5) (y : BitVec 6)
  /-- SP_UP_NOSAVE (R295). Runs an upward pass without saving node values. -/
  | spUpNosave (a b : BitVec 5) (y : BitVec 6) (x : Half)
  /-- SP_DOWN (R296). Runs a downward pass, writing the leaf adjoints. -/
  | spDown (a b : BitVec 5) (y : BitVec 6)
  /-- SP_DOWN_ACC (R296). Runs a downward pass that adds the adjoints into the leaf-adjoint words. -/
  | spDownAcc (a b : BitVec 5) (y : BitVec 6) (x : Half)
  /-- SP_NORM (R305). Renormalises an SPF32 bank to the scale that its largest word calls for. -/
  | spNorm (k : BitVec 4)
  /-- SP_NORM_SET (R305). Rewrites an SPF32 bank at a given scale. -/
  | spNormSet (b : BitVec 5) (k : BitVec 4)
  /-- SP_WAIT (R306). Waits until the thread's earlier Skink commands have completed, then acquires. -/
  | spWait
  /-- SK_COMMAND_PERFORM (R297). Skink performs an accepted pass, transfer or renormalisation, step by step. -/
  | skCommandPerform (tile thread : Nat)
  /-- CP (R310). Issues a shaped copy from a checked copy pair, with a completion word or an expectation credit. -/
  | cp (a b : BitVec 5) (c : BitVec 1) (e : BitVec 2)
  /-- CP_OFFSET (R312). Issues a shaped copy with source and destination block offsets. -/
  | cpOffset (a b : BitVec 5) (c : BitVec 1) (e : BitVec 2) (x : Half)
  /-- CP_EXPECT (R313). Arms a copy expectation with a byte count, a completion word and a watchdog. -/
  | cpExpect (a b : BitVec 5) (e : BitVec 2) (x : Half)
  /-- COPY_PERFORM (R312). The copy engine performs a copy, writing its blocks and its completion word or credit. -/
  | copyPerform (tile thread : Nat)
  /-- COPY_SHORT (R314). An ARMED expectation's watchdog expires, and COPY_SHORT is raised. -/
  | copyShort (thread e : Nat)
  /-- MS_SUB (R320). Starts a standing MSE push or pull subscription. -/
  | msSub (h : BitVec 4) (a : BitVec 5) (x : Half)
  /-- MS_PULL (R320). Starts an MSE pull of exactly s[b] slots. -/
  | msPull (h : BitVec 4) (a b : BitVec 5)
  /-- MS_PULL_DONE (R320). Starts an MSE pull of s[b] slots that ends with a completion word. -/
  | msPullDone (h : BitVec 4) (a b : BitVec 5) (x : Half)
  /-- MS_STOP (R320). Stops the subscription on a ring at a slot boundary. -/
  | msStop (h : BitVec 4)
  /-- MSE_PUSH_SLOT (R318). An MSE fills one slot from tensor rows and posts it to every destination once there is room. -/
  | msePushSlot (sub : Nat)
  /-- MSE_PULL_SLOT (R319). An MSE takes one posted slot, writes its payload to the tensor and advances. -/
  | msePullSlot (sub : Nat)
  /-- Q_CLAIM (R327). Ends any open task, then claims the head record of a queue and opens a task. -/
  | qClaim (d a : BitVec 5)
  /-- Q_PUB (R328). Publishes a 64-byte record to a queue, or defers it to the region's end. -/
  | qPub (a b : BitVec 5)
  /-- Q_WAIT (R329). Waits on a queue unless it holds records or a latched notify. -/
  | qWait (a : BitVec 5)
  /-- Q_NOTE (R329). Makes every waiter on a queue Ready, or latches PEND when there is none. -/
  | qNote (a : BitVec 5)
  /-- GR_LAUNCH (R232). Launches a graph instance from a launch block and returns its instance number. -/
  | grLaunch (d a b : BitVec 5)
  /-- FIRE_BEGIN (R236). Waits for the phase's slots and room, aligning to a cut if one has reached the actor, then opens a firing. -/
  | fireBegin
  /-- FIRE_END (R237). Checks the declared rates, then closes the firing as one publication. -/
  | fireEnd
  /-- MODE_REQ (R256). Requests a mode change through a MODE cut. -/
  | modeReq (a : BitVec 5)
  /-- MARK_INJ (R256). Starts or pends a USER cut. -/
  | markInj (a b : BitVec 5)
  /-- MARK_WAIT (R256). Waits until the instance's completed cut count reaches s[a]. -/
  | markWait (a : BitVec 5)
  /-- PAGE_REQ (R241). Marks a page instance as wanted by the thread. -/
  | pageReq (a : BitVec 5)
  /-- PAGE_DROP (R242). Marks a page instance, or every page instance of the thread, as not wanted. -/
  | pageDrop (a : BitVec 5)
  /-- RMON_RD (R240). Reads a monitor item: phase, rates, flags, cuts, state or page. -/
  | rmonRd (d a : BitVec 5)
  /-- EN_RD (R349). Reads an account register item. -/
  | enRd (d a : BitVec 5)
  /-- EN_SUB (R350). Returns quota from an account's balance to the partition pool. -/
  | enSub (d a b : BitVec 5)
  /-- EN_SET (R351). Writes an account register: balance, reserve, status, low threshold or weight. -/
  | enSet (a b : BitVec 5)
  /-- TRAP (R360). Raises SWTRAP with its code. -/
  | trap (c : BitVec 6)
  /-- TRET (R361). Returns from a handler to TC_RPC, restoring TC_TSW. -/
  | tret
  /-- CSR_RD (R380). Reads a control register, subject to its level and access checks. -/
  | csrRd (d : BitVec 5) (r : BitVec 11)
  /-- CSR_WR (R380). Writes a control register, subject to its level and access checks. -/
  | csrWr (a : BitVec 5) (r : BitVec 11)
  /-- IDLE (R382). Waits for an asynchronous trap, a record-ring TAIL change, or 1 ms. -/
  | idle
  /-- TIME_RD (R383). Reads device time in nanoseconds. -/
  | timeRd (d : BitVec 5)
  /-- DBG_BRK (R391). Raises BREAK with its code. -/
  | dbgBrk (c : BitVec 6)
  /-- TRC_MARK (R394). Writes a MARK trace record. -/
  | trcMark (a : BitVec 5) (x : BitVec 6)
  /-- TRC_FRZ (R394). Freezes the tile's trace buffer in the next cycle. -/
  | trcFrz
  /-- CKPT_REQ (R398). Requests a checkpoint of the partition. -/
  | ckptReq
  /-- IADD (R161). Element integer add with saturation kind. -/
  | iadd (a b : BitVec 9) (s : BitVec 2) (n : BitVec 1) (v : BitVec 3)
  /-- ISUB (R161). Element integer subtract with saturation kind. -/
  | isub (a b : BitVec 9) (s : BitVec 2) (n : BitVec 1) (v : BitVec 3)
  /-- IMUL (R161). Element integer multiply with saturation kind. -/
  | imul (a b : BitVec 9) (s : BitVec 2) (n : BitVec 1) (v : BitVec 3)
  /-- IMULH (R161). Element signed multiply-high. -/
  | imulh (a b : BitVec 9) (s : BitVec 2) (n : BitVec 1)
  /-- IAND (R161). Element bitwise AND. -/
  | iand (a b : BitVec 9) (s : BitVec 2) (n : BitVec 1)
  /-- IOR (R161). Element bitwise OR. -/
  | ior (a b : BitVec 9) (s : BitVec 2) (n : BitVec 1)
  /-- IXOR (R161). Element bitwise exclusive OR. -/
  | ixor (a b : BitVec 9) (s : BitVec 2) (n : BitVec 1)
  /-- ISHL (R161). Element shift left. -/
  | ishl (a b : BitVec 9) (s : BitVec 2) (n : BitVec 1)
  /-- ISHR (R161). Element logical shift right. -/
  | ishr (a b : BitVec 9) (s : BitVec 2) (n : BitVec 1)
  /-- ISAR (R161). Element arithmetic shift right. -/
  | isar (a b : BitVec 9) (s : BitVec 2) (n : BitVec 1)
  /-- IMIN (R161). Element signed minimum. -/
  | imin (a b : BitVec 9) (s : BitVec 2) (n : BitVec 1)
  /-- IMAX (R161). Element signed maximum. -/
  | imax (a b : BitVec 9) (s : BitVec 2) (n : BitVec 1)
  /-- IMINU (R161). Element unsigned minimum. -/
  | iminu (a b : BitVec 9) (s : BitVec 2) (n : BitVec 1)
  /-- IMAXU (R161). Element unsigned maximum. -/
  | imaxu (a b : BitVec 9) (s : BitVec 2) (n : BitVec 1)
  /-- IABS (R161). Element absolute value with saturation kind. -/
  | iabs (a b : BitVec 9) (s : BitVec 2) (n : BitVec 1) (v : BitVec 3)
  /-- ICMP (R161). Element integer compare, giving 1 or 0. -/
  | icmp (a b : BitVec 9) (s : BitVec 2) (n : BitVec 1) (v : BitVec 3)
  /-- FADD (R162). Element F32 add, rounded once. -/
  | fadd (a b : BitVec 9) (s : BitVec 2) (n : BitVec 1) (v : BitVec 3)
  /-- FSUB (R162). Element F32 subtract, rounded once. -/
  | fsub (a b : BitVec 9) (s : BitVec 2) (n : BitVec 1) (v : BitVec 3)
  /-- FMUL (R162). Element F32 multiply, rounded once. -/
  | fmul (a b : BitVec 9) (s : BitVec 2) (n : BitVec 1) (v : BitVec 3)
  /-- FFMA (R162). Element fused multiply-add, rounded once. -/
  | ffma (a b : BitVec 9) (s : BitVec 2) (n : BitVec 1) (v : BitVec 3)
  /-- FMIN (R163). Element F32 minimum. -/
  | fmin (a b : BitVec 9) (s : BitVec 2) (n : BitVec 1)
  /-- FMAX (R163). Element F32 maximum. -/
  | fmax (a b : BitVec 9) (s : BitVec 2) (n : BitVec 1)
  /-- FABS (R163). Element F32 absolute value. -/
  | fabs (a b : BitVec 9) (s : BitVec 2) (n : BitVec 1)
  /-- FNEG (R163). Element F32 negation. -/
  | fneg (a b : BitVec 9) (s : BitVec 2) (n : BitVec 1)
  /-- FCMP (R163). Element F32 compare, giving 1 or 0. -/
  | fcmp (a b : BitVec 9) (s : BitVec 2) (n : BitVec 1) (v : BitVec 3)
  /-- RNDI (R164). Element rounding to an integral F32 value. -/
  | rndi (a b : BitVec 9) (s : BitVec 2) (n : BitVec 1) (v : BitVec 3)
  /-- FXP (R165). Element 2^a for |a| ≤ 1, correctly rounded. -/
  | fxp (a b : BitVec 9) (s : BitVec 2) (n : BitVec 1)
  /-- EXPINS (R166). Element a × 2^b, rounded once. -/
  | expins (a b : BitVec 9) (s : BitVec 2) (n : BitVec 1)
  /-- EXPEXT (R166). Element ⌊log2 |a|⌋ as an integer. -/
  | expext (a b : BitVec 9) (s : BitVec 2) (n : BitVec 1)
  /-- FRCP (R167). Element reciprocal approximation. -/
  | frcp (a b : BitVec 9) (s : BitVec 2) (n : BitVec 1)
  /-- FRSQ (R167). Element reciprocal square-root approximation. -/
  | frsq (a b : BitVec 9) (s : BitVec 2) (n : BitVec 1)
  /-- BADD2 (R168). Element packed BF16 add. -/
  | badd2 (a b : BitVec 9) (s : BitVec 2) (n : BitVec 1) (v : BitVec 3)
  /-- BSUB2 (R168). Element packed BF16 subtract. -/
  | bsub2 (a b : BitVec 9) (s : BitVec 2) (n : BitVec 1) (v : BitVec 3)
  /-- BMUL2 (R168). Element packed BF16 multiply. -/
  | bmul2 (a b : BitVec 9) (s : BitVec 2) (n : BitVec 1) (v : BitVec 3)
  /-- BFMA2 (R168). Element packed BF16 fused multiply-add. -/
  | bfma2 (a b : BitVec 9) (s : BitVec 2) (n : BitVec 1) (v : BitVec 3)
  /-- BMIN2 (R168). Element packed BF16 minimum. -/
  | bmin2 (a b : BitVec 9) (s : BitVec 2) (n : BitVec 1)
  /-- BMAX2 (R168). Element packed BF16 maximum. -/
  | bmax2 (a b : BitVec 9) (s : BitVec 2) (n : BitVec 1)
  /-- I2F (R169). Element conversion of a signed integer to F32. -/
  | i2f (a b : BitVec 9) (s : BitVec 2) (n : BitVec 1) (v : BitVec 3)
  /-- F2I (R169). Element conversion of F32 to I32 with signed saturation. -/
  | f2i (a b : BitVec 9) (s : BitVec 2) (n : BitVec 1) (v : BitVec 3)
  /-- F2B (R169). Element packing of two F32 values into BF16 lanes. -/
  | f2b (a b : BitVec 9) (s : BitVec 2) (n : BitVec 1) (v : BitVec 3)
  /-- B2F (R169). Element widening of BF16 lane 0 to F32. -/
  | b2f (a b : BitVec 9) (s : BitVec 2) (n : BitVec 1)
  /-- B2FH (R169). Element widening of BF16 lane 1 to F32. -/
  | b2fh (a b : BitVec 9) (s : BitVec 2) (n : BitVec 1)
  /-- ESEL (R170). Element select of b or c by a. -/
  | esel (a b : BitVec 9) (s : BitVec 2) (n : BitVec 1)
  /-- STEER (R171). Element steering of data to one of two consumers by a control token. -/
  | steer (a b : BitVec 9) (s : BitVec 2) (n : BitVec 1)
  /-- MERGE (R172). Element merge of two arms into one stream. -/
  | merge (a b : BitVec 9) (s : BitVec 2) (n : BitVec 1)
  /-- MERGE_SECOND_EMIT (R172). A merge emits the second of two non-null tokens in the next cycle. -/
  | mergeSecondEmit (page slot : Nat)
  /-- GATE (R173). Element that passes a when b is non-zero. -/
  | gate (a b : BitVec 9) (s : BitVec 2) (n : BitVec 1)
  /-- DUP (R174). Element that emits n copies of a, one per cycle. -/
  | dup (a b : BitVec 9) (s : BitVec 2) (n : BitVec 1)
  /-- DUP_COPY_EMIT (R174). A repeating dup emits its next copy. -/
  | dupCopyEmit (page slot : Nat)
  /-- ACC (R175). Element F32 accumulator that emits at an end rank. -/
  | acc (a b : BitVec 9) (s : BitVec 2) (n : BitVec 1) (v : BitVec 3)
  /-- TAGSET (R170). Element that sets a token's tag. -/
  | tagset (a b : BitVec 9) (s : BitVec 2) (n : BitVec 1)
  /-- PASS (R170). Element that passes a token unchanged. -/
  | pass (a b : BitVec 9) (s : BitVec 2) (n : BitVec 1)
  /-- ENDS (R170). Element that raises a token's end rank. -/
  | ends (a b : BitVec 9) (s : BitVec 2) (n : BitVec 1)
  /-- CNT (R176). Element counter that emits and advances its count, wrapping at b. -/
  | cnt (a b : BitVec 9) (s : BitVec 2) (n : BitVec 1)
  /-- AGL (R210). AG stream load: each start token begins a run. -/
  | agl (i : BitVec 4)
  /-- AGS (R211). AG stream store of the tokens on q0. -/
  | ags (i : BitVec 4)
  /-- AGC (R212). AG stream copy between two descriptors. -/
  | agc (i : BitVec 4)
  /-- AG_ACCESS (R213). An AG element performs one checked access of its run. -/
  | agAccess (page slot : Nat)
  /-- RIN (R201). Ring input port element: opens slots and emits their tokens. -/
  | rin (a b : BitVec 9) (i : BitVec 4)
  /-- ROUT (R202). Ring output port element: writes tokens from q0 into slots. -/
  | rout (i : BitVec 4)
  /-- REP (R203). Writes a token to a wide-plane replicate port and passes it on. -/
  | rep (a b : BitVec 9) (i : BitVec 4)
  /-- OUTPUT_PORT_WRITE (R202). An output port accepts a token from its serving element and writes, opens or closes slots. -/
  | outputPortWrite (page port : Nat)
  /-- PORT_HELD_TOKEN_WRITE (R202). A port that holds a token writes it once a slot becomes available. -/
  | portHeldTokenWrite (page port : Nat)
  /-- TOKEN_ARRIVAL (R154). A token reaches a consumer's landing buffer or port after the latency and the bus delay. -/
  | tokenArrival (page k : Nat)
  /-- QUEUE_TURN_RELEASE (R156). A producer's held token leaves when its turn at a queue with several producers comes. -/
  | queueTurnRelease (page slot q : Nat)
  /-- MARKER_ALIGN (R160). An element or RSU aligns the markers at its forward inputs, records its state and forwards one marker. -/
  | markerAlign (page pos : Nat)
  /-- RSU_FIRE (R180). An RSU folds or scans one token from each masked column. -/
  | rsuFire (page row : Nat)
  /-- RSU_SCAN_EMIT (R180). An RSU scan emits its next partial result. -/
  | rsuScanEmit (page row : Nat)
  /-- PAGE_PLACE (R245). Dione chooses a waiting page, then loads, checks, restores and binds it on a free region. -/
  | pagePlace (part region : Nat)
  /-- PAGE_EVICT (R245). Dione stops and drains a page, then saves its region state. -/
  | pageEvict (part : Nat)
  /-- BACK_EDGE_MARKER_TAKE (R252). The cut's marker on a back edge is taken once it stands at Head with P = 0. -/
  | backEdgeMarkerTake (part inst actor h : Nat)
  /-- FORCED_CUT (R255). A cut's deadline expires, and the instance is frozen and saved. -/
  | forcedCut (part inst : Nat)
  /-- QUEUE_LAUNCH (R233). Newt takes a launch record from a queue and performs the launch. -/
  | queueLaunch (part q : Nat)
  /-- INSTANCE_END (R234). Once every thread has exited and the subscriptions have drained, the instance releases its resources and writes its completion word. -/
  | instanceEnd (part inst : Nat)
  /-- SCHEDULER_PREEMPT (R247). The device scheduler pre-empts lower-priority instances with PREEMPT cuts. -/
  | schedulerPreempt (part inst : Nat)
  /-- SCHEDULER_RESUME (R247). The device scheduler resumes a waiting instance, writing back its engine state first. -/
  | schedulerResume (part inst : Nat)
  /-- WAKE (R114). A Waiting thread becomes Ready after the condition it waits for holds. -/
  | wake (thread : Nat)
  /-- IDLE_TIMEOUT (R382). 1 ms of device time passes, ending an idle. -/
  | idleTimeout (thread : Nat)
  /-- ASYNC_TRAP_DELIVERY (R359). A pending asynchronous trap is delivered at an instruction boundary. -/
  | asyncTrapDelivery (thread : Nat)
  /-- BREAKPOINT_MATCH (R390). A PC breakpoint matches before issue and raises BREAK. -/
  | breakpointMatch (thread : Nat)
  /-- RECORD_BACKLOG_WRITE (R362). A held record is written to the record ring once room appears. -/
  | recordBacklogWrite (part : Nat)
  /-- XDONE (R364). A write of TC_XDONE requeues an aborted region or restores a stopped thread. -/
  | xdone (part id : Nat)
  /-- INSTCTL_PREEMPT (R235). MK_INSTCTL CMD 0 starts a PREEMPT cut on an instance. -/
  | instctlPreempt (part inst : Nat)
  /-- INSTCTL_RESUME (R235). MK_INSTCTL CMD 1 resumes a STOPPED instance. -/
  | instctlResume (part inst : Nat)
  /-- INSTCTL_END (R235). MK_INSTCTL CMD 2 ends an instance with code 6. -/
  | instctlEnd (part inst : Nat)
  /-- TLB_INVALIDATE (R144). A write of DEV_TLBINV drops matching translations in every slice. -/
  | tlbInvalidate (part : Nat) (v : Word)
  /-- Q_SYNC (R325). Writes a queue's state back to its descriptor and unmaps it where allowed. -/
  | qSync (part q : Nat)
  /-- Q_SYNC_HALT (R325). Halts a queue, wakes its waiters, then writes it back and unmaps it. -/
  | qSyncHalt (part q : Nat)
  /-- CTXDATA_READ (R366). Reads 8 bytes of a stopped thread's context and advances OFF. -/
  | ctxdataRead (thread : Nat)
  /-- CTXDATA_WRITE (R366). Writes 8 bytes of a stopped thread's saved context and advances OFF. -/
  | ctxdataWrite (thread : Nat) (v : Word)
  /-- TRCDATA_READ (R387). Reads 8 bytes of the trace buffer and advances the selection. -/
  | trcdataRead (tile : Nat)
  /-- TRACE_UNFREEZE (R387). Writing 1 to FROZEN unfreezes the buffer, sets WPTR to 0 and clears DROP. -/
  | traceUnfreeze (tile : Nat)
  /-- TRACE_FREEZE (R389). After a trigger's POST records, the FREEZE record is written and the buffer freezes. -/
  | traceFreeze (tile : Nat)
  /-- SAMPLE (R392). The sample period expires, and a SAMPLE record is written for each watched thread. -/
  | sample (tile : Nat)
  /-- TIME_STEP (R384). A STEP write advances device time, acting on the timers that it passes. -/
  | timeStep (ns : Nat)
  /-- TIME_SLEW (R383). A SLEW write sets device time's rate offset, saturating. -/
  | timeSlew (v : Half)
  /-- REGISTER_WRITE (R380). A write to a register that has no row of its own stores its RW fields. -/
  | registerWrite (thread : Nat) (r : BitVec 11) (v : Word)
  /-- QUEUE_NOTIFY (R329). A write to a VF window's per-queue notify register acts as q.note. -/
  | queueNotify (fn q : Nat)
  /-- QUEUE_NOTIFY_INDEXED (R374). A write to the indexed queue notify register acts as q.note on queue q. -/
  | queueNotifyIndexed (fn : Nat) (v : Word)
  /-- HOST_PUBLICATION (R330). The host's sequence-word write publishes a record in a host-fed queue. -/
  | hostPublication (part q : Nat)
  /-- INGEST_ARRIVAL (R331). A host sequence write to an ingest queue is published with its stamp, or discarded as late. -/
  | ingestArrival (part q k : Nat)
  /-- INGEST_DEADLINE (R331). Device time reaches the deadline of slot NEXT, and Newt publishes a null record. -/
  | ingestDeadline (part q : Nat)
  /-- HOST_APERTURE_WRITE (R375). A host write through a function's memory aperture is translated and published. -/
  | hostApertureWrite (fn va : Nat) (bytes : List Byte)
  /-- HOST_APERTURE_READ (R375). A host read through a function's memory aperture, which returns all ones when translation fails. -/
  | hostApertureRead (fn va n : Nat)
  /-- ARC_ARRIVAL (R376). An arc link writes an incoming slot and its count into the consumer's ring. -/
  | arcArrival (link ring : Nat) (bytes : List Byte)
  /-- ARC_ADVANCE_RETURN (R376). An arc link delivers the remote consumer's advance as a REMOTE0 write. -/
  | arcAdvanceReturn (link ring n : Nat)
  /-- LINK_BEAT_ERROR (R377). A beat error makes the link retrain and resend unacknowledged beats. -/
  | linkBeatError (link : Nat)
  /-- LINK_DOWN (R377). A link down for more than 100 ms writes a LINK_DOWN record. -/
  | linkDown (link : Nat)
  /-- LINK_RETURN (R377). A link returns, and its arcs resume. -/
  | linkReturn (link : Nat)
  /-- ATTACH_ERR (R378). An attach module loses lanes or fails training, and an error record is written. -/
  | attachErr (m : Nat)
  /-- THERMAL (R417). An island is held below its requested operating point, and a THERMAL record is written. -/
  | thermal (island : Nat)
  /-- METER_FLUSH (R336). Every 10 µs a meter flushes its accumulators into the accounts, lowering the balances. -/
  | meterFlush (meter : Nat)
  /-- INTERVAL_END (R346). Every 1 ms of device time the shared energy is split and the mirrors are updated. -/
  | intervalEnd
  /-- CALIBRATION_TRIM (R338). Every 10 s the coefficients and leakage models are trimmed and the wear margins measured. -/
  | calibrationTrim
  /-- CHECKPOINT_TIMER (R398). The checkpoint period expires, and a checkpoint starts or is skipped. -/
  | checkpointTimer (part : Nat)
  /-- CHECKPOINT_COMPLETE (R398). The whole image is written to the tier, BUSY falls and CK_LAST is set. -/
  | checkpointComplete (part : Nat)
  /-- CHECKPOINT_IMAGE_WRITE (R399). Once its cuts are done, Encke writes the checkpoint's image and state chunks to the tier while LIM allows. -/
  | checkpointImageWrite (part : Nat)
  /-- CREATE (R372). Creates a partition with tiles, zeroed granules, queues, keys and functions. -/
  | create (side : Bool) (part : Nat) (arg0 arg1 : Word)
  /-- DESTROY (R372). Ends the instances, zeroes the allocation, wipes the key and frees the partition. -/
  | destroy (side : Bool) (part : Nat) (arg0 arg1 : Word)
  /-- RESIZE (R257). Runs RESIZE cuts, then moves the threads and resumes or suspends the instances. -/
  | resize (side : Bool) (part : Nat) (arg0 arg1 : Word)
  /-- ASSIGN (R373). Adds virtual functions to a partition. -/
  | assign (side : Bool) (part : Nat) (arg0 arg1 : Word)
  /-- RELEASE (R373). Removes virtual functions from a partition, leaving them unassigned. -/
  | release (side : Bool) (part : Nat) (arg0 arg1 : Word)
  /-- PARTITION_RESET (R372). Ends every instance and clears the tiles, keeping the allocation and the key. -/
  | partitionReset (side : Bool) (part : Nat) (arg0 arg1 : Word)
  /-- RESTORE (R403). Restores a partition from a checkpoint chain, optionally replaying the log. -/
  | restore (side : Bool) (part : Nat) (arg0 arg1 : Word)
  /-- SETPOOL (R372). Writes the partition's EN_POOL. -/
  | setpool (side : Bool) (part : Nat) (arg0 arg1 : Word)
  /-- ARCS (R372). Assigns arc links to a partition. -/
  | arcs (side : Bool) (part : Nat) (arg0 arg1 : Word)
  /-- RETIRE (R412). Resizes a tile out of its partition and retires it, presenting a spare where one exists. -/
  | retire (side : Bool) (part : Nat) (arg0 arg1 : Word)
  /-- ENSET (R372). Performs en.set on a named account from the PF or Tethys. -/
  | enset (side : Bool) (part : Nat) (arg0 arg1 : Word)
  /-- STATUS (R406). A Tethys request that returns DEV_STATUS, the lifecycle state and the firmware version. -/
  | status
  /-- LOGRD (R406). A Tethys request that reads its copy of the error log. -/
  | logrd (i : Nat)
  /-- ENRD (R406). A Tethys request that reads the account mirrors. -/
  | enrd (acct item : Nat)
  /-- WEARRD (R411). A Tethys request that reads the WEAR_ registers. -/
  | wearrd (i : Nat)
  /-- ATTEST (R415). A Tethys request that returns a signed quote over the nonce, the identifier and M0–M3. -/
  | attest (nonce : Nat)
  /-- PCTL (R406). A signed Tethys request that submits a partition-control command. -/
  | pctl (ctr sig : Nat) (cmd arg0 arg1 : Word)
  /-- DUMP (R393). A signed Tethys request that streams a partition's dump. -/
  | dump (ctr sig part : Nat)
  /-- KEKSET (R414). A signed Tethys request that sets the checkpoint key-encryption key. -/
  | kekset (ctr sig key : Nat)
  /-- RESET (R406). A signed Tethys request for a device reset: main power cycles and bring-up restarts. -/
  | reset (ctr sig : Nat)
  /-- FWLOAD (R408). A signed Tethys request that writes and verifies a new firmware image. -/
  | fwload (ctr sig version index : Nat) (image : FwSealed)
  /-- UNLOCK_NONCE (R416). The first UNLOCK request returns the fuse values and a fresh nonce. -/
  | unlockNonce
  /-- UNLOCK_TOKEN (R416). A token checks, raises the counter, destroys the partitions, extends the measurements and opens the debug port. -/
  | unlockToken (token : Nat)
  /-- PROVISION (R406). A Tethys request that replaces the operator public key. -/
  | provision (token key : Nat)
  /-- STANDBY_BOOT (R405). On standby power Tethys boots and verifies the firmware, finishing any pending unlock or entering recovery. -/
  | standbyBoot
  /-- MAIN_POWER_GOOD (R405). Main power-good starts bring-up: hash masks, tile test, spares and numbering. -/
  | mainPowerGood (good0 good1 : List Nat) (hbmOk : Bool)
  /-- CALIBRATION_DONE (R405). Self-calibration completes, CAL rises, and memory initialisation starts. -/
  | calibrationDone
  /-- MEMINIT_DONE (R405). HBM initialisation completes, and MEMINIT rises. -/
  | meminitDone
  /-- ATTACH_TRAINING_DONE (R405). Attach training ends with ATTACH raised or ATTACH_ERR recorded. -/
  | attachTrainingDone (ok : Bool)
  /-- READY (R14). DEV_STATUS.READY rises, and Newt acts on the queued records in publish order. -/
  | ready
  /-- ARC_SLOT_SEND (R376). An arc link takes a slot posted on an outgoing arc and sends its payload and trailer as 64-byte beats to the far package. -/
  | arcSlotSend (link ring : Nat)
  /-- POWER_LOSS (R416). Standby and main power are lost: everything stops, an FWLOAD in progress leaves the image incomplete, and an accepted unlock is left to be completed at the next boot. -/
  | powerLoss
  deriving DecidableEq, Repr

end Sys2Proof
end

