-- ==== Sys2Proof/Machine/State.lean ====
section
/-! DEFINITION. The state of the part as plain data: every piece of state the spec gives it, and
State.reset. INVENTORY.md lists each field with its rule and its reset value. -/

namespace Sys2Proof.Machine

/-- A table by number, ascending; a number it does not list has the default entry. -/
abbrev Tab (α : Type) := List (Nat × α)

/-- Memory: bytes by 52-bit physical address (R116), ascending, no zero byte listed (log 1). -/
abbrev Memory := List Host.Cell

/-- Why a step stops. -/
inductive Fault where
  /-- A control or element instruction was run with no live thread, or no resident element, to run
  it. Raised by every meaning of such an instruction; safe: the part never runs one so (R18, log 3). -/
  | noAgent
  deriving DecidableEq, Repr

/-- Why a step is refused. -/
inductive Refusal where
  /-- The arm of `exec` has no meaning yet. Raised by Dispatch only; safe. -/
  | notModelled (mnemonic : String)
  deriving DecidableEq, Repr

/-- The states of a live thread slot; a Free slot has no thread (R84). -/
inductive SlotState where
  | ready | waiting | stopped
  deriving DecidableEq, Repr

/-- A bound ring handle: the descriptor's four words (R189), L and P (R190). -/
structure Handle where
  bound : Bool := false
  d0 : Word := 0
  d1 : Word := 0
  d2 : Word := 0
  d3 : Word := 0
  l : Word := 0
  p : Nat := 0
  deriving DecidableEq, Repr

/-- A byte of a buffered store: its physical address, the virtual address of the store it belongs to, space `.g`, value,
and the account that made the store (R120, R122, R134, R151). -/
structure BufByte where
  pa : Nat
  va : Nat
  isG : Bool
  byte : Byte
  acct : Nat := 64
  deriving DecidableEq, Repr

/-- A two-level name with its thread's work (R24, R22): who issued the command; `operand` the first operand address of an
engine command, where it has one (R386). -/
structure Name where
  thread : Nat := 0
  part : Nat := 0
  inst : Nat := 0
  ordinal : Nat := 0xFFFF
  actor : Nat := 0xFFFF
  acct : Nat := 64
  pc : Word := 0
  seq : Half := 0
  operand : Option Word := none
  deriving DecidableEq, Repr

/-- A pending asynchronous trap (R359, R365). -/
structure Pending where
  cause : Nat
  tpc : Word
  tseq : Half
  tval : Word
  deriving DecidableEq, Repr

/-- A copy expectation (R313): `inRegion` says that the open region armed it (R147). -/
structure Expect where
  armed : Bool := false
  remaining : Nat := 0
  completion : Word := 0
  watchdog : Nat := 0
  name : Name := {}
  inRegion : Bool := false
  deriving DecidableEq, Repr

/-- What a region's end applies, in issue order (R125, R237). -/
inductive Deferred where
  /-- `ring.adv`, `ring.post`, or an engine command's slots on a handle. -/
  | take (h n : Nat)
  deriving DecidableEq, Repr

/-- An open idempotent region (R125): a firing, or a task with the record Newt keeps (R327). -/
structure Region where
  isTask : Bool
  startPc : Word
  regs : Vector Word 32
  preds : BitVec 8
  spill : Word
  deferred : List Deferred := []
  pubs : List (Nat × List Byte) := []
  descs : List (Nat × BitVec 16) := []
  taken : Vector Nat 16 := Vector.replicate 16 0
  mode : Nat := 0
  phase : Nat := 0
  firstCmd : Nat := 0
  queue : Nat := 0
  record : List Byte := []
  deriving DecidableEq, Repr

/-- What a Waiting thread waits for (R84): the instruction, whether a publication has made its
condition hold (R137), the physical address a `wait` watches, and what a waiting `q.pub` or `gr.launch` has read. -/
structure Wait where
  instr : Instr
  sat : Bool := false
  pa : Nat := 0
  since : Nat := 0
  data : List Byte := []
  deriving DecidableEq, Repr

/-- A live control thread (R83, R84, R356, R365): `held` the position of the replay at which its event waited for its turn
(R403), with the slot that a spawn finds taken still (R107), `stopDue` a stop that waits until its accepted engine commands have completed (R284, R308, R315),
`copying` the partition and place of Encke's copy that its next publication waits for (R399, R400). -/
structure Thread where
  num : Nat
  state : SlotState := .ready
  pc : Word := 0
  regs : Vector Word 32 := Vector.replicate 32 0
  preds : BitVec 8 := 1
  handles : Vector Handle 16 := Vector.replicate 16 {}
  seq : Half := 0
  sw : Word := 0
  tsw : Word := 0
  tpc : Word := 0
  tseq : Half := 0
  cause : Word := 0
  tval : Word := 0
  rpc : Word := 0
  spill : Word := 0
  mxTcfg : Word := 0
  skTcfg : Word := 0
  ctxSel : Word := 0
  part : Nat := 0
  inst : Nat := 0
  actor : Nat := 0xFFFF
  ordinal : Nat := 0
  worker : Bool := true
  maxLevel : Nat := 0
  wait : Option Wait := none
  begun : Bool := false
  snap : Nat := 0
  fetchSnap : Nat := 0
  buf : List BufByte := []
  region : Option Region := none
  expects : Vector Expect 4 := Vector.replicate 4 {}
  pending : List Pending := []
  lastCut : Word := 0
  waitCount : Nat := 0
  fence : Nat := 0
  afterTret : Bool := false
  aligned : Bool := false
  recordId : Nat := 0
  drain : Bool := false
  ctxEdits : List (Nat × Word) := []
  task : Option (Nat × List Byte) := none
  held : Option (Nat × Option Nat) := none
  copying : Option (Nat × Nat × Nat) := none
  stopDue : Option Pending := none
  deriving DecidableEq, Repr

/-- What an accepted engine command does, with the operands it read at issue. -/
inductive CmdOp where
  | ldb (img len m g cnt : Nat)
  | run (h : Option Nat) (base : Nat) (stride : Option Nat) (win : Word) (place : Nat) (clr : Bool)
  | clr (win : Word)
  | out (h : Option Nat) (base : Nat) (win : Word) (clr : Bool) (fmt : Nat) (scale : Int) (mode : Nat)
  | sumCfg (new : Word)
  | shape (y : Nat) (ops leafs : Word) (ctl : Nat)
  | skLoad (h : Option Nat) (recd : Option (List Byte)) (base bank wa cnt : Nat)
  | skStore (h : Option Nat) (recd : Option (List Byte)) (base bank wa cnt fmt : Nat) (scale : Int) (mode : Nat)
  | up (a b : Word) (y : Nat) (nosave : Bool)
  | down (a b : Word) (y : Nat) (acc : Bool)
  | norm (bank : Nat) (setTo : Option Int)
  | copy (src dst : List Byte) (soff doff : Int) (credit : Option Nat) (completion : Word)
  | expect (e : Nat) (count : Nat) (completion : Word) (watchdog : Nat)
  | noop (h : Option Nat)
  deriving DecidableEq, Repr

/-- An accepted engine command (R246): its number, its name, the captured configuration (R272, R287),
the commands it waits for (R135) and the slots it took, which an open region's deferred list holds too where
`inRegion`. -/
structure Cmd where
  id : Nat
  name : Name
  op : CmdOp
  level : Nat := 0
  cfg : Word := 0
  fence : Nat := 0
  slots : List (Nat × Nat) := []
  inRegion : Bool := false
  space0 : List Nat := []
  deriving DecidableEq, Repr

/-- A compute-in-memory macro (R261): cells by row × 512 + column, scale file by column × 4 + group,
the load mode of each group (0 none, 1 8-bit, 2 16-bit, 3 ternary) and the thread that loaded it. -/
structure Macro where
  cells : List (Nat × Byte) := []
  scales : List (Nat × Int) := []
  modes : Vector Nat 4 := Vector.replicate 4 0
  owner : Option (Nat × Nat × Nat) := none
  deriving DecidableEq, Repr

/-- A shape register (R291). -/
structure Shape where
  ops : Word := 0
  leafs : Word := 0
  ctl : Nat := 0
  deriving DecidableEq, Repr

/-- A trace record of 32 bytes (R386). -/
structure TraceRec where
  w0 : Word
  w1 : Word
  w2 : Word
  w3 : Word
  deriving DecidableEq, Repr

/-- The registers and units of one tile, beside its stores, which lie in memory (R10). `rowCells` and `rowExps` are the
row buffer of the matrix unit: the aligned cells of the A row it holds, in element order, and eA of each 64-element group
(R261); what they do not list is zero. `trcRecent` counts the trace records written since time last passed (R386, log 112). -/
structure Tile where
  present : Bool := false
  absent : Bool := false
  owner : Option Nat := none
  macro0 : Macro := {}
  macro1 : Macro := {}
  mxFlags : BitVec 5 := 0
  rowCells : List Int := []
  rowExps : List Int := []
  mxQ : List Cmd := []
  banks : List (Nat × Half) := []
  scales : Vector Int 16 := Vector.replicate 16 0
  shapes : Tab Shape := []
  skFlags : Vector (BitVec 5) 4 := Vector.replicate 4 0
  skQ : List Cmd := []
  cpQ : List Cmd := []
  engLast : Vector Nat 3 := Vector.replicate 3 3
  barOpen : Bool := false
  barMask : Nat := 0
  barReq : Nat := 0
  barArr : Nat := 0
  lastIssue : Vector Nat 4 := Vector.replicate 4 3
  rgFlags : BitVec 5 := 0
  rgRnd : Nat := 0
  rgAcc : Vector Word 5 := Vector.replicate 5 0
  trcCtl : Word := 0
  trcWptr : Nat := 0
  trcFrozen : Bool := false
  trcCause : Nat := 0
  trcDovf : Bool := false
  trcDrop : Nat := 0
  trcSel : Word := 0
  trcPost : Option (Nat × Nat) := none
  trcRecent : Nat := 0
  trace : List TraceRec := []
  trig : Vector Word 4 := Vector.replicate 4 0
  brk : Vector Word 4 := Vector.replicate 4 0
  brkSeq : Vector Word 4 := Vector.replicate 4 0
  sampleCfg : Word := 0
  deriving DecidableEq, Repr

/-- A token: payload and sideband (R153). -/
structure Token where
  payload : Half := 0
  n : Bool := false
  m : Bool := false
  e : Nat := 0
  t : Nat := 0
  deriving DecidableEq, Repr

/-- An operand queue with its landing buffer (R155): at most 12 tokens, the first four waiting. -/
structure Queue where
  toks : List Token := []
  turn : Nat := 0
  deriving DecidableEq, Repr

/-- Where a token goes: an element queue, a port, an RSU column, a replicate port, discard (R44). -/
inductive Dest where
  | queue (slot q : Nat)
  | port (p : Nat)
  | rsu (row col : Nat)
  | discard
  deriving DecidableEq, Repr

/-- A token in flight (R154), or held by its producer for its turn (R156). -/
structure Flight where
  producer : Nat
  dest : Dest
  tok : Token
  deriving DecidableEq, Repr

/-- The internal register of an element and its progress (R152, R172 to R176, R160). -/
structure ElemReg where
  sum : Half := 0
  poisoned : Bool := false
  count : Half := 0
  dupTok : Token := {}
  dupLeft : Nat := 0
  second : Option Token := none
  recorded : Bool := false
  deriving DecidableEq, Repr

/-- A ring port of a page (R201, R202, R218). -/
structure Port where
  isOpen : Bool := false
  slot : Nat := 0
  cursor : Nat := 0
  trailer : Nat := 0
  last : Token := {}
  finished : Nat := 0
  finishedMark : Nat := 0
  held : List Token := []
  count : Nat := 0
  deriving DecidableEq, Repr

/-- An address generator (R208, R218): running, run offset, loop indices, tokens left of the access,
null run. -/
structure Ag where
  busy : Bool := false
  off : Int := 0
  i0 : Nat := 0
  i1 : Nat := 0
  i2 : Nat := 0
  i3 : Nat := 0
  pos : Nat := 0
  null : Bool := false
  toks : List Token := []
  deriving DecidableEq, Repr

/-- An RSU: input buffers by column and the tokens still to emit (R180). -/
structure Rsu where
  inputs : Tab (List Token) := []
  emit : List Token := []
  scan : Bool := false
  deriving DecidableEq, Repr

/-- The region state of a page instance (R183, R218, R368). -/
structure RegionState where
  queues : Tab Queue := []
  flight : List Flight := []
  held : List Flight := []
  elems : Tab ElemReg := []
  rsus : Tab Rsu := []
  ports : Tab Port := []
  ags : Tab Ag := []
  rnd : Nat := 0
  flags : BitVec 5 := 0
  aligning : Bool := false
  cutNum : Nat := 0
  marked : List Nat := []
  backDone : List (Nat × Nat) := []
  backRecs : List (Nat × Token) := []
  recs : List (Nat × ElemReg × List Queue) := []
  deriving DecidableEq, Repr

/-- The configuration phase of a resident page (R395): its cycles by class; whether it has moved anything since its
placement; whether a token or write has left it; how often it has fired or written since time last passed, and how many
of these were fires while an input port or an `agl` run had a token ready. -/
structure Phase where
  load : Nat := 0
  fill : Nat := 0
  steady : Nat := 0
  drain : Nat := 0
  moved : Bool := false
  left : Bool := false
  fires : Nat := 0
  ready : Nat := 0
  deriving DecidableEq, Repr

/-- A page instance: the pair of a thread's ordinal and a page index (R241). -/
structure Page where
  id : Nat
  part : Nat
  inst : Nat
  ordinal : Nat
  index : Nat
  wanted : Bool := false
  region : Option Nat := none
  lastRegion : Option Nat := none
  image : List Byte := []
  windows : Tab (List Byte) := []
  va : Nat := 0
  placed : Bool := false
  placements : Nat := 0
  waitSince : Nat := 0
  residentSince : Nat := 0
  lastFire : Nat := 0
  phase : Phase := {}
  name : Name := {}
  st : RegionState := {}
  deriving DecidableEq, Repr

/-- An actor entry of a template as launch read it (R224), with its run-time counts (R236, R251): `markStep` how
far its alignment has come (1 its pages run the marker firing, 2 its inputs are taken), `markOut` the producer ends
that have their marker. -/
structure Actor where
  kind : Nat := 0
  prio : Nat := 0
  regions : Nat := 0
  tileHint : Nat := 0
  entry : Nat := 0
  alo : Nat := 0
  ahi : Nat := 0
  hmap : List Nat := []
  sub : Nat := 0
  qrep : Nat := 0
  qmode : Word := 0
  phase : Nat := 0
  firings : Nat := 0
  aligned : Bool := false
  markStep : Nat := 0
  markOut : List Nat := []
  ended : Bool := false
  tile : Nat := 0
  deriving DecidableEq, Repr

/-- A ring entry of a template (R225). -/
structure Ring where
  prod : Nat := 0
  cons : Nat := 0
  slot64 : Nat := 0
  depth : Nat := 0
  back : Bool := false
  arc : Nat := 0
  base : Nat := 0
  ccb : Nat := 0
  pcb : Nat := 0
  pvaBase : Nat := 0
  delay : Nat := 0
  init : Nat := 0
  deriving DecidableEq, Repr

/-- The states of an instance (R234). -/
inductive InstState where
  | running | cutting | stopped | quota | suspendedRegions | suspendedAstore | ending
  deriving DecidableEq, Repr

/-- An MSE subscription (R316 to R321): `desc` is the tile end, `tileActor` its actor; `posted` the MSE's own
counter; `left` the slots of a pull; `stopAt` where a stopped pull ends and `stoppers` the names, numbers and handles of the
`ms.stop`s that wait for it; `inFiring` the slots of an MSE actor's open firing; `finished` a tensor that has ended. -/
structure Sub where
  id : Nat
  name : Name
  mse : Nat
  thread : Option Nat := none
  actor : Nat := 0xFFFF
  tileActor : Nat := 0xFFFF
  level : Nat := 0
  handle : Nat := 0
  desc : Handle
  tile : Nat
  record : List Byte
  row : Nat := 0
  passes : Nat := 0
  posted : Nat := 0
  left : Option Nat := none
  done : Option Nat := none
  stopping : Bool := false
  stopAt : Nat := 0
  stoppers : List (Name × Nat × Nat) := []
  cmd : Nat := 0
  fence : Nat := 0
  finished : Bool := false
  marked : Bool := false
  inFiring : Nat := 0
  lastServed : Nat := 0
  inRegion : Bool := false
  deriving DecidableEq, Repr

/-- Saved engine state of a thread of a stopped instance (R284, R308, R369); `store` holds its footprint and
its spill range, `descs` the descriptors of the footprint's lines by line of the store (R61, R82), and `tile` the tile it left, while it has no tile (R257). -/
structure SavedEngine where
  ordinal : Nat
  store : List (Nat × Byte) := []
  descs : List (Nat × BitVec 16) := []
  tile : Nat := 0
  macros : List (Nat × Macro) := []
  columns : List (Nat × Byte) := []
  mxFlags : BitVec 5 := 0
  banks : List (Nat × Half) := []
  scales : List (Nat × Int) := []
  shapes : Tab Shape := []
  skFlags : List (Nat × BitVec 5) := []
  deriving DecidableEq, Repr

/-- A marker cut (R249 to R256). `slots` holds its in-flight copies (R252): actor, handle, counter,
bytes; `pos` where each agent aligned in the publication order (R399); `threads`, `pages`, `subs`, `actors` and
`engines` what alignment recorded (R251, R284, R308, R321); `forced` a forced cut (R255); `doneAt` the position in the
publication order at which it completed; `logAt` and `logDone` the same positions in the order log (R401). -/
structure Cut where
  num : Nat := 0
  purposes : BitVec 6 := 0
  injected : Word := 0
  mode : Nat := 0
  user : Nat := 0
  k : Nat := 0
  deadline : Option Nat := none
  continuation : Bool := false
  backTaken : List (Nat × Nat) := []
  slots : List (Nat × Nat × Nat × List Byte) := []
  pos : List (Nat × Nat) := []
  threads : List Thread := []
  pages : List Page := []
  subs : List Sub := []
  actors : List (Nat × Actor) := []
  engines : List SavedEngine := []
  forced : Bool := false
  doneAt : Nat := 0
  logAt : List (Nat × Nat) := []
  logDone : Nat := 0
  deriving DecidableEq, Repr

/-- A graph instance (R228 to R256): `cut` in progress, `pending` (R254), `goOn` the MODE continuation of a
forced cut (R255), `stopDue` a stop that its replay has asked for and `diverged` that it has (R403), `endCode` the code its completion word takes (R228), `base` the tile base of its launch (R229). -/
structure Inst where
  part : Nat
  num : Nat
  args : Word := 0
  doneVa : Nat := 0
  level : Nat := 0
  acct : Nat := 0
  prio : Nat := 0
  textVa : Nat := 0
  dataVa : Nat := 0
  pagesVa : Nat := 0
  kywinVa : Nat := 0
  kywinSize : Nat := 0
  npage : Nat := 0
  nmode : Nat := 1
  initMode : Nat := 0
  rmin : Nat := 0
  mcdl : Nat := 1
  actors : List Actor := []
  rings : List Ring := []
  rates : List (Nat × List (List Nat)) := []
  state : InstState := .running
  mode : Nat := 0
  started : Word := 0
  completed : Word := 0
  cut : Option Cut := none
  pending : Option Cut := none
  goOn : Option Cut := none
  schedStopped : Bool := false
  stopDue : Bool := false
  diverged : Bool := false
  resizeWait : Bool := false
  saved : List SavedEngine := []
  ckRec : Option Cut := none
  stoppedSince : Nat := 0
  launchSeq : Nat := 0
  endCode : Nat := 0
  base : Nat := 0
  deriving DecidableEq, Repr

/-- A queue mapped at Newt (R325, R329): `closed` array positions and `arrived` early sequence writes of an
ingest queue (R331), and the records requeued while it was full (R148). -/
structure NewtQueue where
  part : Nat
  q : Nat
  ring : Nat
  lsize : Nat
  mode : Nat
  host : Bool
  prio : Nat
  pend : Bool
  owner : Nat
  head : Nat
  tail : Nat
  period : Nat
  slack : Nat
  t0 : Nat
  late : Nat
  nulls : Nat
  next : Nat
  waiters : List Nat := []
  lastUsed : Nat := 0
  closed : List Nat := []
  arrived : List (Nat × Nat) := []
  requeue : List (List Byte) := []
  deriving DecidableEq, Repr

/-- A record (R363); `ext` holds the 48 bytes from 0x40 to 0x6F. -/
structure Record where
  cause : Nat
  kind : Nat
  access : Nat := 0
  name : Name := {}
  id : Nat := 0
  value : Word := 0
  time : Nat := 0
  ext : List Byte := []
  deriving DecidableEq, Repr

/-- An order-log record of 32 bytes (R401). -/
structure LogRec where
  typ : Nat
  ordinal : Nat := 0xFFFF
  inst : Nat := 0
  pc : Word := 0
  seq : Half := 0
  a : Nat := 0
  b : Word := 0
  deriving DecidableEq, Repr

/-- What a record identifier stands for until it is done (R148, R364). -/
inductive Owed where
  | region (thread : Nat) (task : Option (Nat × List Byte))
  | thread (thread : Nat)
  deriving DecidableEq, Repr

/-- A chunk of the tier stream that waits to be written (R400): a checkpoint header, a run of 64 KiB granules of the
image space, a state block, a log block. -/
inductive Chunk where
  | header (prev time : Nat)
  | granules (off count : Nat)
  | state
  | log (id pos count : Nat)
  deriving DecidableEq, Repr

/-- A resize in progress (R257, R372, R412): the tiles, granules and queue count the partition will have, the side
that asked (none for the device monitor), and the tile that a RETIRE takes. -/
structure Resize where
  tiles : List Nat
  granules : List Nat
  queues : Nat
  side : Option Bool
  retire : Option Nat := none
  deriving DecidableEq, Repr

/-- A partition (R370) with its per-partition registers and its Encke state (R397 to R403): `ckInsts` the instances as they
stood when the cuts of the checkpoint in progress were done, each with its cut record; `replayAt` the log positions of the
records that a replay has before it, `replayPos` that of the next one. -/
structure Partition where
  exists_ : Bool := false
  tiles : List Nat := []
  granules : List Nat := []
  qFirst : Nat := 0
  qCount : Nat := 0
  links : Nat := 0
  functions : List Nat := []
  root : Word := 0
  vec : Word := 0
  recRing : Word := 0
  pmapIx : Nat := 0
  qTable : Word := 0
  qKept : Bool := false
  pdl : Nat := 1000
  pool : Word := allOnes
  enTable : Word := 0
  ckPeriod : Word := 100 + 10000 * 0x1000000
  ckTier : Word := 0
  ckTierLen : Word := 0
  ckTierWr : Word := 0
  ckTierLim : Word := 0
  ckBusy : Bool := false
  ckReplay : Bool := false
  ckSkip : Nat := 0
  ckSovf : Bool := false
  ckLast : Word := 0
  ckCtl : Word := 1
  ckStart : Nat := 0
  ckNext : Nat := 1
  ckFull : Bool := true
  ckImage : Option (List Chunk) := none
  ckChunkPos : Nat := 0
  ckPos : Nat := 0
  ckInsts : List Inst := []
  instNext : Nat := 1
  recNext : Nat := 1
  backlog : List Record := []
  owed : List (Nat × Owed) := []
  log : List LogRec := []
  logWritten : Nat := 0
  logBlock : Option (Nat × Nat) := none
  replay : List LogRec := []
  replayAt : List Nat := []
  replayPos : Nat := 0
  tenantKey : Nat := 0
  ckptKey : Nat := 0
  resizing : Option Resize := none
  recChanged : Nat := 0
  deriving DecidableEq, Repr

/-- The image of a checkpoint (R399, R400), at image-space offsets: the 64 KiB granules it holds, their bytes and
block descriptors, the instances with their cut records, the partition's registers, the position of its first log
block, its key plain and as its header holds it, wrapped (R414), the queue descriptors, where its region states' chains
stand (R368), and the chunks of its stream with the count of tier bytes at which they start. -/
structure Checkpoint where
  part : Nat
  id : Nat
  prev : Nat
  time : Nat
  granules : List Nat
  mem : Memory
  descs : List (Nat × BitVec 16)
  insts : List Inst
  threads : List Thread
  pages : List Page
  subs : List Sub
  partState : Partition
  wrapped : BitVec 256
  key : Nat
  logPos : Nat
  queues : List (List Byte) := []
  chain : Nat := 0
  chunks : List Chunk := []
  start : Nat := 0
  deriving DecidableEq, Repr

/-- An energy account (R340): its registers, fine residue, the interval's dynamic energy and the last
sixteen, and its mirrors (R16); `lowDue` and `exhDue` say that a fall below LOW (R343) or to 0 (R344) is to be acted on,
`cutBy` the elapsed time by which the QUOTA cuts of an exhaustion start (R344 step 2). -/
structure Account where
  acct : Word := 0
  quota : Word := allOnes
  reserve : Word := 1000000
  shared : Word := 0
  status : Word := 0
  low : Word := 0
  weight : Word := 1
  dyn16 : Word := 0
  fine : Nat := 0
  dynNow : Nat := 0
  last16 : List Nat := []
  mirAcct : Word := 0
  mirQuota : Word := allOnes
  lowDue : Bool := false
  exhDue : Bool := false
  cutBy : Option Nat := none
  deriving DecidableEq, Repr

/-- The request registers of one side of reset and partition control (R372), and the step that accepted the request
it holds with the partition that owned the tile of a RETIRE then (R15). -/
structure Control where
  cmd : Word := 0
  arg0 : Word := 0
  arg1 : Word := 0
  busy : Bool := false
  since : Nat := 0
  target : Option Nat := none
  status : Nat := 0
  done : Nat := 0
  deriving DecidableEq, Repr

/-- A virtual function: the partition that holds it (R373) and its last aperture failure record (R375). -/
structure Func where
  part : Option Nat := none
  lastPctl : Option Nat := none
  level : Nat := 0
  deriving DecidableEq, Repr

/-- A cached translation (R143): the tile whose slice holds it, partition, base of the mapped 64 KiB or 64 MiB, level,
entry. A slice holds at most 1,024 entries (R10). -/
structure TlbEntry where
  slice : Nat
  part : Nat
  va : Nat
  level : Nat
  pte : Word
  deriving DecidableEq, Repr

/-- A 64-byte line of a tile's instruction cache (R441): tile, partition, virtual line number, the physical line that its
translation gave, whether level U may execute it, and its bytes. A tile holds at most 512 lines. -/
structure CodeLine where
  tile : Nat
  part : Nat
  line : Nat
  pa : Nat
  usr : Bool
  data : List Byte
  deriving DecidableEq, Repr

/-- An arc link (R376, R377); `sent` counts the slots it has sent, by the instance's launch × 4,096 + ring index. -/
structure Link where
  up : Bool := true
  downAt : Nat := 0
  reported : Bool := false
  sent : Tab Nat := []
  deriving DecidableEq, Repr

/-- A request that has arrived at Tethys (R406): the frame time, its port (Ethernet, else I3C), and the request, which is
none for a command code that Tethys does not know. -/
structure Request where
  frame : Nat
  ethernet : Bool
  instr : Option Instr
  deriving DecidableEq, Repr

/-- Tethys (R406 to R416): `pendingToken` an unlock token it has accepted and recorded, `loading` a firmware image that
it is writing, `flash` the one image (R407), none for
the image with which the part left the factory, and `flashWhole` whether it stands there whole, `port` the scope for which the
debug port is open, `mirrors` its copies of the account mirrors (R12), `inbox` the requests it has not acted on, in their
order, `response` what it returned to the last request, `identity` the public key of the identity key (R413), `m0` to `m3` the
64-byte measurements (R415). -/
structure Tethys where
  booted : Bool := false
  recovery : Bool := false
  counter : Nat := 0
  operatorKey : Nat := 0
  kek : Option Nat := none
  nonce : Option Nat := none
  nonces : Nat := 0
  pendingToken : Option Nat := none
  loading : Option FwImage := none
  m0 : BitVec 512 := 0
  m1 : BitVec 512 := 0
  m2 : BitVec 512 := 0
  m3 : BitVec 512 := 0
  lifecycle : Nat := 1
  unlocks : Nat := 0
  rollback : Nat := 0
  fwVersion : Nat := 0
  fwIndex : Nat := 0
  fwGood : Bool := true
  flash : Option FwImage := none
  flashWhole : Bool := true
  port : Option Nat := none
  mirrors : Tab (Word × Word) := []
  inbox : List Request := []
  errHead : Nat := 0
  response : List Nat := []
  identity : Nat := 0
  deriving DecidableEq, Repr

/-- The device's own registers and units (R14, R323, R372, R379, R383, R405 to R417): `offered` the built tiles that
passed their test and are presented or spare, `good0` and `good1` the presented ones by virtual number, `points` the
operating points of the islands, `hostData` what the last read of the host has returned. `hashNext` are hash masks that
the next device reset loads (R323), `failed` that bring-up has failed (R405), `attachLost` that a
trained attach has lost lanes (R378), `rowsUsed` the spare rows that each pseudo-channel has taken and `pchOut` the
pseudo-channels whose spare rows are used up (R412). `retired` are the built tiles that were retired (R412), `retireDue` the
virtual tiles that the device monitor is to retire, `corrected` the times of each tile store's MEM_CE records (R410). The wear
figures are those of R411: `wearDays` and `wearConf` the prediction, `predicted` whether one has been made, `powered` the
time under main power in ns since manufacture, `cycles` the main power cycles, `margins` each island's margin as last
measured. `asked` are the operating points requested of the islands (R417). `calBase` is the calibration that fitted the coefficients, `trims` the factors, in parts per million,
that each island's trims have applied since, with their numbers, `trimNext` those of the next boundary, `trimLast` the
elapsed time of the last one (R338), `meterFlushed` when each meter was last flushed by its period (R336). -/
structure Device where
  ready : Bool := false
  cal : Bool := false
  memInit : Bool := false
  mgmt : Bool := false
  attach : Bool := false
  degraded : Bool := false
  mainPower : Bool := false
  attachEnded : Bool := false
  attachLost : Bool := false
  time : Nat := 0
  elapsed : Nat := 0
  slew : Half := 0
  slewRest : Nat := 0
  hash : Vector Word 9 := Vector.ofFn fun n => word (2 ^ (8 + n.val) + 2 ^ (17 + n.val) + 2 ^ (26 + n.val))
  pf : Control := {}
  teth : Control := {}
  errLog : List Record := []
  errHead : Nat := 0
  errTail : Nat := 0
  errLost : Nat := 0
  errNext : Nat := 1
  pkg : Word := 0
  spool : Word := 0
  resid : Word := 0
  interval : Nat := 0
  fractions : List Nat := []
  calGen : Nat := 0
  calBase : Nat := 0
  trims : Tab (List (Nat × Nat)) := []
  trimNext : Tab Nat := []
  trimDue : Bool := false
  trimLast : Nat := 0
  meterFlushed : Tab Nat := []
  hashNext : Option (List Nat) := none
  failed : Bool := false
  pchOut : List Nat := []
  rowsUsed : Tab Nat := []
  retired : List Nat := []
  retireDue : List Nat := []
  corrected : Tab (List Nat) := []
  wearDays : Nat := 0
  wearConf : Nat := 0
  predicted : Bool := false
  powered : Nat := 0
  cycles : Nat := 0
  margins : Tab Word := []
  asked : Tab Nat := []
  wearSel : Nat := 0
  spares0 : Nat := 0
  spares1 : Nat := 0
  retired0 : Nat := 0
  retired1 : Nat := 0
  offered : List Nat := []
  good0 : List Nat := []
  good1 : List Nat := []
  points : Tab Nat := []
  hostData : List Byte := []
  deriving DecidableEq, Repr

/-- Who acts next. The spec leaves the order among agents open; a state holds the agents chosen to
act next, and once none is left the free schedule chooses (log 3). -/
inductive Turn where
  /-- The core of a tile chooses a Ready thread by R85 and issues its next instruction. -/
  | core (tile : Nat)
  /-- The element in a slot of a resident page fires if it can (R157). -/
  | elem (page slot : Nat)
  /-- A device event, or an agent's step that is no instruction. -/
  | event (i : Instr)
  /-- Time passes: nanoseconds of the elapsed-time counter (R384, log 4). -/
  | pass (ns : Nat)
  /-- An uncorrectable error stands in the 64-byte block of this address from now on (R149, log 18). -/
  | memError (pa : Nat)
  /-- A corrected soft error is counted in a unit (R378, log 18). -/
  | softError (unit : Nat)
  /-- A TLB slice replaces an entry (R143, log 9). -/
  | tlbDrop (slice part va : Nat)
  /-- A request arrives at Tethys (R406). -/
  | request (r : Request)
  /-- Tethys acts on the first request that has arrived (R406). -/
  | serve
  /-- Tethys goes down while main power stays on (R12). -/
  | tethysDown
  /-- The debug port reads or writes a `DB_` register of a tile (R13, R388, R416). -/
  | portRead (tile reg : Nat)
  | portWrite (tile reg : Nat) (value : Word)
  /-- An island of a tile, or another island or a stack, fails in bring-up (R405). -/
  | tileFails (tile : Nat)
  | unitFails (unit : Nat)
  /-- The row of an HBM address fails (R412). -/
  | rowFails (pa : Nat)
  /-- The device monitor retires the first tile that is due (R410, R412). -/
  | monitor
  /-- An operating point is requested for an island (R417). -/
  | pointAsked (island point : Nat)
  /-- The flash refuses the write of a firmware image (R408). -/
  | flashRefused
  /-- The QUOTA cuts of an exhausted account start (R344 step 2). -/
  | quotaCuts (acct : Nat)
  deriving DecidableEq, Repr, Inhabited

/-- Host and link input that is held back, under a replay (R403) or until READY (R14): a host publication, an ingest
sequence write, a host aperture write, an arc arrival, a notify. -/
inductive HeldInput where
  | publication (part q : Nat)
  | ingest (part q k time : Nat)
  | sequence (part q pos v time : Nat)
  | requeue (part q : Nat) (record : List Byte)
  | write (fn va : Nat) (bytes : List Byte)
  | arc (link ring : Nat) (bytes : List Byte)
  | notify (fn q : Nat)
  deriving DecidableEq, Repr

/-- The state of the part; `arrays` the granules, with their partition, in which firmware has reserved a descriptor array
for described pages (R61), `tlb` the entries of every tile's TLB slice, `icache` the lines of every instruction cache. -/
structure State where
  mem : Memory := []
  descs : List (Nat × BitVec 16) := []
  pubCount : Nat := 0
  hist : List (Option (Nat × Nat × Nat) × List Host.Cell × List (Nat × BitVec 16)) := []
  pubBy : Option (Nat × Nat × Nat) := none
  badBlocks : List Nat := []
  softErrors : List (Nat × Nat) := []
  threads : Tab Thread := []
  tiles : Tab Tile := []
  pages : Tab Page := []
  pageNext : Nat := 0
  insts : List Inst := []
  subs : List Sub := []
  queues : List NewtQueue := []
  launching : List (Nat × Nat) := []
  parts : Tab Partition := []
  ckpts : List Checkpoint := []
  accounts : Tab Account := []
  meters : Tab (List (Nat × Nat)) := []
  funcs : Tab Func := []
  tlb : List TlbEntry := []
  icache : List CodeLine := []
  arrays : List (Nat × Nat) := []
  links : Tab Link := []
  held : List HeldInput := []
  dev : Device := {}
  teth : Tethys := {}
  cur : Nat := 0
  curPage : Nat := 0
  curSlot : Nat := 0
  turns : List Turn := []
  steps : Nat := 0
  fresh : Nat := 0
  nextCmd : Nat := 1
  deriving DecidableEq, Repr

/-- The part right after device reset (R14, R84 and the Reset columns of the register tables): every
field at its default above, which INVENTORY.md lists with its rule or its log entry. -/
def State.reset : State := {}

end Sys2Proof.Machine
end

