-- ==== Sys2Proof/Config.lean ====
section
/-! DEFINITION. The free values: what the spec leaves open. Each opaque constant has no body, so that
no proof can see its value. -/

namespace Sys2Proof.Config

/-- The charge coefficient of a class on an island at an operating point, in 1/256 pJ, as a calibration at bring-up fits
it: 32 bits, unsigned (R337, R338: each is fitted separately and no value is specified; log 7). -/
opaque coef : (gen cls island point : Nat) → BitVec 32

/-- Whether a trim rounds a coefficient up (R338: the rounding is not given; log 17). -/
opaque coefUp : (trim cls island point : Nat) → Bool

/-- Sensor energy over metered total of an island at a trim, in parts per million (R338: the sensors' values are not given;
log 17). -/
opaque trimFactor : (trim island : Nat) → Nat

/-- Whether the temperature has been steady in an interval (R339; log 114). -/
opaque steady : (ctr : Nat) → Bool

/-- The energy that an account's work of an interval would draw alone on the same islands (R339; log 114). -/
opaque aloneEnergy : (ctr acct : Nat) → Nat

/-- The energy that calibration uses, in 1/256 pJ (R338; log 17). -/
opaque calEnergy : (ctr : Nat) → Nat

/-- The deadline of the cuts of a resize in ns, which its requester sets (R21, R255: the request has no field for it;
log 81). -/
opaque resizeDeadline : (ctr : Nat) → Nat

/-- How many units of a path class an access causes (R151: NoC flits, bridge, caches, HBM, attach,
table reads depend on the path; log 7). The first argument is the counter of free values. -/
opaque pathUnits : (ctr cls : Nat) → Nat

/-- Which entry a full TLB slice or instruction cache gives up (R143, R441: no replacement order is given; log 9). -/
opaque victim : (step addr : Nat) → Nat

/-- Where in a granule firmware reserves the descriptor array of the granule's described pages (R61: the place is not
given; log 97). -/
opaque descArray : (granule : Nat) → Nat

/-- The agent that acts at a step when the state names none (log 3). -/
opaque turn : (step : Nat) → Machine.Turn

/-- A value the spec does not state, distinct for each value of the counter (log 7). -/
opaque freeWord : (ctr : Nat) → Word

/-- Whether the two trace records that a tile wrote last stand in the cycle of the next one (R386: the cycles of records
of one instant are not given; log 112). -/
opaque crowded : (step recent : Nat) → Bool

/-- The MSE that serves an MSE actor, taken modulo 16 (R189, R229: the spec does not say which; log 22). -/
opaque mseOf : (actor tile : Nat) → Nat

/-- Random keys and nonces (R371, R414, R416; log 16). -/
opaque random : (ctr : Nat) → Nat

/-- SHAKE256 over a message, as a number (R407, R413, R415, R416; log 16), and its first 64 bytes (R415). -/
opaque shake256 : List Nat → Nat
def digest64 (message : List Nat) : BitVec 512 := BitVec.ofNat 512 (shake256 message)

/-- Ed448 (R406, R407, R413, R415, R416; log 16): the public key of a 456-bit secret, the signature that the holder of a
public key makes over a message, what else a check may accept, and the check. -/
opaque ed448Public : (secret : BitVec 456) → Nat
opaque ed448Sign : (key message : Nat) → Nat
opaque ed448Also : (key message sig : Nat) → Bool
def ed448Check (key message sig : Nat) : Bool := decide (sig = ed448Sign key message) || ed448Also key message sig

/-- The fused identity of the part and the debug authority's key (R413, R416; log 16). -/
opaque fuseSecret : BitVec 456
opaque debugAuthorityKey : Nat

/-- AES-256 key wrap (R414; log 16): a key as a key-encryption key wraps it, in the 32 bytes that a header has for it
(log 78). -/
opaque keyWrap : (kek key : Nat) → BitVec 256

/-- The spare rows of a pseudo-channel (R412: their number is not given; log 17). -/
opaque spareRows : (pch : Nat) → Nat

/-- AES-256-XTS of a chunk of the tier stream: a byte of the ciphertext (R400; log 16). -/
opaque tierCipher : (key : Nat) → List Byte → (index : Nat) → Byte

/-- Nolxon's firmware key, whose digest is fused (R407; log 16). -/
opaque firmwareKey : Nat
def firmwareDigest : Nat := shake256 [firmwareKey]

/-- The image with which the part left the factory (R407; log 16): version and index 0, signed with Nolxon's key. -/
opaque factoryBody : Nat
def factoryImage : FwImage :=
  { body := factoryBody, key := firmwareKey, sig := ed448Sign firmwareKey (shake256 [0, 0, factoryBody]) }

/-- The rail sensors and the shared sources of an interval, in 1/256,000 nJ (R346; log 17). -/
opaque pkgEnergy : (ctr : Nat) → Nat
opaque refreshEnergy : (ctr : Nat) → Nat
opaque leakage : (ctr tile : Nat) → Nat
opaque infraEnergy : (ctr : Nat) → Nat

/-- The wear readings (R410, R411; log 17): the prediction of the end of life, and the margin of an island with its
limit. -/
opaque wearEol : (ctr : Nat) → Word
opaque wearMargin : (ctr island : Nat) → Word

/-- The hash masks that the device configuration holds (R323; log 17). -/
opaque configMask : (n : Nat) → Word

/-- Cell contents of a group whose load faulted (R274: unspecified mix; log 11). -/
opaque mixedCell : (ctr index : Nat) → Byte
opaque mixedScale : (ctr index : Nat) → Int

end Sys2Proof.Config
end

