-- ==== Sys2Proof/WellFormed.lean ====
section
/-! DEFINITION. Which instructions the formats allow: the checks of R27, R29 steps 3 and 4, R33 to
R39, R44 to R46 and of the defining chapters' extension words. What a check refuses raises ILL on
issue (a control word) or PAGE_BAD on loading (an element word). -/

namespace Sys2Proof

/-- Bits `[lo + n - 1 : lo]` of an extension word (R27). -/
def xbits (x : Half) (lo n : Nat) : Nat := x.toNat / 2 ^ lo % 2 ^ n

/-- An assigned block format code (R64). -/
def formatAssigned (f : Nat) : Bool :=
  decide (f ≤ 0x0E ∧ f ≠ 0x06 ∧ f ≠ 0x07) || decide (f = 0x10)

/-- A consumer field that R44 allows: none, an element slot, a ring port, an RSU, a replicate port or
discard, and no queue bits where a special target has none. -/
def consumerOk (c : BitVec 9) : Bool :=
  decide (c.toNat = 0x1FF) || decide (c.toNat < 256) ||
    (decide (c.toNat % 4 = 0) && (decide (c.toNat < 256 + 128) || decide (c.toNat = 0x1FC)))

/-- Both consumer fields are allowed (R44). That consumers A and B differ is a check of the page they stand on
(R51), not of the word. -/
def consumersOk (a b : BitVec 9) : Bool := consumerOk a && consumerOk b

/-- The extension word of `mx.cfg`: MODE 0 to 4, DEFA and DEFB zero or an assigned code, and the
reserved bits zero (R273). -/
def matrixConfigOk (x : Half) : Bool :=
  decide (xbits x 0 3 ≤ 4 ∧ xbits x 19 13 = 0) && formatAssigned (xbits x 3 8) && formatAssigned (xbits x 11 8)

/-- The extension word of `mx.out`: an assigned format code (R64, R270), mode 0 to 4 and bits [31:19] zero (R277). -/
def roundingRecordOk (x : Half) : Bool := formatAssigned (xbits x 0 8) && decide (xbits x 16 3 ≤ 4 ∧ xbits x 19 13 = 0)

/-- The extension word of `sp.cfg`: FMT 0 to 2, RND 0 to 4, every other bit zero (R301). -/
def sumConfigOk (x : Half) : Bool := decide (xbits x 0 2 ≤ 2 ∧ xbits x 2 3 ≤ 4 ∧ xbits x 5 27 = 0)

/-- The extension word of `sp.st`: mode 0 to 4 and bits [31:20] zero (R304). -/
def storeExtOk (x : Half) : Bool := decide (xbits x 16 3 ≤ 4 ∧ xbits x 20 12 = 0)

/-- The instruction breaks no rule of its format. -/
def wellFormed : Instr → Bool
  | .add _ _ _ => true
  | .sub _ _ _ => true
  | .mul _ _ _ => true
  | .mulh _ _ _ => true
  | .div _ _ _ => true
  | .rem _ _ _ => true
  | .and _ _ _ => true
  | .or _ _ _ => true
  | .xor _ _ _ => true
  | .andn _ _ _ => true
  | .shl _ _ _ => true
  | .shr _ _ _ => true
  | .sar _ _ _ => true
  | .min _ _ _ => true
  | .max _ _ _ => true
  | .minu _ _ _ => true
  | .maxu _ _ _ => true
  | .clz _ _ => true
  | .ctz _ _ => true
  | .popc _ _ => true
  | .sext8 _ _ => true
  | .sext16 _ _ => true
  | .sext32 _ _ => true
  | .zext8 _ _ => true
  | .zext16 _ _ => true
  | .zext32 _ _ => true
  | .addi _ _ _ => true
  | .movi _ _ => true
  | .movhi _ _ => true
  | .lea _ _ _ _ => true
  | .cmpEq p _ _ => decide (p.toNat ≤ 7)
  | .cmpNe p _ _ => decide (p.toNat ≤ 7)
  | .cmpLt p _ _ => decide (p.toNat ≤ 7)
  | .cmpGe p _ _ => decide (p.toNat ≤ 7)
  | .cmpLtu p _ _ => decide (p.toNat ≤ 7)
  | .cmpGeu p _ _ => decide (p.toNat ≤ 7)
  | .bfx _ _ w p => decide (p.toNat + (w.toNat + 1) ≤ 64)
  | .bfi _ _ w p => decide (p.toNat + (w.toNat + 1) ≤ 64)
  | .sel _ _ _ _ _ => true
  | .bc p n _ => decide (¬ (p.toNat = 0 ∧ n.toNat = 0))
  | .br _ => true
  | .call _ => true
  | .jmp _ => true
  | .ret => true
  | .loop _ _ => true
  | .thrSpawn _ _ _ => true
  | .thrExit => true
  | .thrYield => true
  | .bar _ => true
  | .ld8 _ _ _ _ => true
  | .ld16 _ _ _ _ => true
  | .ld32 _ _ _ _ => true
  | .ld64 _ _ _ _ => true
  | .ld8s _ _ _ _ => true
  | .ld16s _ _ _ _ => true
  | .ld32s _ _ _ _ => true
  | .st8 _ _ s _ => decide (s.toNat ≠ 3)
  | .st16 _ _ s _ => decide (s.toNat ≠ 3)
  | .st32 _ _ s _ => decide (s.toNat ≠ 3)
  | .st64 _ _ s _ => decide (s.toNat ≠ 3)
  | .ldp d _ _ _ => decide (d.toNat ≠ 31)
  | .stp d _ s _ => decide (d.toNat ≠ 31 ∧ s.toNat ≠ 3)
  | .atAdd _ _ _ z s _ => decide (z.toNat ≤ 1 ∧ s.toNat ≤ 2)
  | .atAnd _ _ _ z s _ => decide (z.toNat ≤ 1 ∧ s.toNat ≤ 2)
  | .atOr _ _ _ z s _ => decide (z.toNat ≤ 1 ∧ s.toNat ≤ 2)
  | .atXor _ _ _ z s _ => decide (z.toNat ≤ 1 ∧ s.toNat ≤ 2)
  | .atMin _ _ _ z s _ => decide (z.toNat ≤ 1 ∧ s.toNat ≤ 2)
  | .atMax _ _ _ z s _ => decide (z.toNat ≤ 1 ∧ s.toNat ≤ 2)
  | .atMinu _ _ _ z s _ => decide (z.toNat ≤ 1 ∧ s.toNat ≤ 2)
  | .atMaxu _ _ _ z s _ => decide (z.toNat ≤ 1 ∧ s.toNat ≤ 2)
  | .atSwap _ _ _ z s _ => decide (z.toNat ≤ 1 ∧ s.toNat ≤ 2)
  | .atCas _ _ _ z s _ => decide (z.toNat ≤ 1 ∧ s.toNat ≤ 2)
  | .atLd _ _ z s _ => decide (z.toNat ≤ 1 ∧ s.toNat ≤ 2)
  | .atSt _ _ _ z s _ => decide (z.toNat ≤ 1 ∧ s.toNat ≤ 2)
  | .phaseEnd => true
  | .phaseSync => true
  | .pub _ _ => true
  | .fenceE => true
  | .pf _ => true
  | .spill d n => decide (d.toNat + n.toNat ≤ 31)
  | .fill d n => decide (d.toNat + n.toNat ≤ 31)
  | .waitEq _ _ s z _ => decide (s.toNat ≠ 3 ∧ z.toNat ≤ 1)
  | .waitNe _ _ s z _ => decide (s.toNat ≠ 3 ∧ z.toNat ≤ 1)
  | .ringDef h _ => decide (h.toNat ≤ 15)
  | .ringWait h _ => decide (h.toNat ≤ 15)
  | .ringRoom h _ => decide (h.toNat ≤ 15)
  | .ringAdv h _ => decide (h.toNat ≤ 15)
  | .ringPost h _ => decide (h.toNat ≤ 15)
  | .ringSlot _ h _ => decide (h.toNat ≤ 15)
  | .ringStat _ h => decide (h.toNat ≤ 15)
  | .mxCfg _ x => matrixConfigOk x
  | .mxLdb _ _ _ => true
  | .mxLdbGroups _ _ _ x => decide (x.toNat < 16)
  | .mxRunRing _ _ _ _ => true
  | .mxRunAstore _ _ _ _ => true
  | .mxRunStride _ _ _ _ x => decide (x.toNat < 2 ^ 20)
  | .mxClr _ => true
  | .mxOutRing _ _ _ => true
  | .mxOutAstore _ _ _ => true
  | .mxOutRingExt _ _ _ x => roundingRecordOk x
  | .mxOutAstoreExt _ _ _ x => roundingRecordOk x
  | .mxWait => true
  | .mxCommandPerform _ _ => true
  | .spCfg _ x => sumConfigOk x
  | .spShape _ _ _ x => decide (x.toNat < 2 ^ 12)
  | .spLdAstore _ _ _ => true
  | .spLdRing _ _ _ => true
  | .spLdRecord _ _ _ => true
  | .spStAstore _ _ _ => true
  | .spStRing _ _ _ => true
  | .spStExt r h a _ _ x => storeExtOk x && decide (x.toNat / 2 ^ 19 = 0 ∧ (r.toNat = 0 → h.toNat = 0) ∧ (r.toNat = 1 → a.toNat = 0))
  | .spStRecord _ _ _ x => storeExtOk x && decide (x.toNat / 2 ^ 19 = 1)
  | .spUp _ _ _ => true
  | .spUpNosave _ _ _ x => decide (x.toNat < 2)
  | .spDown _ _ _ => true
  | .spDownAcc _ _ _ x => decide (x.toNat < 2)
  | .spNorm _ => true
  | .spNormSet _ _ => true
  | .spWait => true
  | .skCommandPerform _ _ => true
  | .cp _ _ _ _ => true
  | .cpOffset _ _ _ _ _ => true
  | .cpExpect _ _ _ x => decide (x.toNat < 2 ^ 20)
  | .copyPerform _ _ => true
  | .copyShort _ _ => true
  | .msSub _ _ _ => true
  | .msPull _ _ _ => true
  | .msPullDone _ _ _ x => decide (x.toNat < 2 ^ 20)
  | .msStop _ => true
  | .msePushSlot _ => true
  | .msePullSlot _ => true
  | .qClaim d _ => decide (d.toNat + 7 ≤ 31)
  | .qPub _ _ => true
  | .qWait _ => true
  | .qNote _ => true
  | .grLaunch _ _ _ => true
  | .fireBegin => true
  | .fireEnd => true
  | .modeReq _ => true
  | .markInj _ _ => true
  | .markWait _ => true
  | .pageReq _ => true
  | .pageDrop _ => true
  | .rmonRd _ _ => true
  | .enRd _ _ => true
  | .enSub _ _ _ => true
  | .enSet _ _ => true
  | .trap _ => true
  | .tret => true
  | .csrRd _ _ => true
  | .csrWr _ _ => true
  | .idle => true
  | .timeRd _ => true
  | .dbgBrk _ => true
  | .trcMark _ _ => true
  | .trcFrz => true
  | .ckptReq => true
  | .iadd a b _ _ v => consumersOk a b && decide (v.toNat ≤ 2)
  | .isub a b _ _ v => consumersOk a b && decide (v.toNat ≤ 2)
  | .imul a b _ _ v => consumersOk a b && decide (v.toNat ≤ 2)
  | .imulh a b _ _ => consumersOk a b
  | .iand a b _ _ => consumersOk a b
  | .ior a b _ _ => consumersOk a b
  | .ixor a b _ _ => consumersOk a b
  | .ishl a b _ _ => consumersOk a b
  | .ishr a b _ _ => consumersOk a b
  | .isar a b _ _ => consumersOk a b
  | .imin a b _ _ => consumersOk a b
  | .imax a b _ _ => consumersOk a b
  | .iminu a b _ _ => consumersOk a b
  | .imaxu a b _ _ => consumersOk a b
  | .iabs a b _ _ v => consumersOk a b && decide (v.toNat ≤ 2)
  | .icmp a b _ _ v => consumersOk a b && decide (v.toNat ≤ 5)
  | .fadd a b _ _ v => consumersOk a b && decide (v.toNat ≤ 5)
  | .fsub a b _ _ v => consumersOk a b && decide (v.toNat ≤ 5)
  | .fmul a b _ _ v => consumersOk a b && decide (v.toNat ≤ 5)
  | .ffma a b _ _ v => consumersOk a b && decide (v.toNat ≤ 5)
  | .fmin a b _ _ => consumersOk a b
  | .fmax a b _ _ => consumersOk a b
  | .fabs a b _ _ => consumersOk a b
  | .fneg a b _ _ => consumersOk a b
  | .fcmp a b _ _ v => consumersOk a b && decide (v.toNat ≤ 5)
  | .rndi a b _ _ v => consumersOk a b && decide (v.toNat ≤ 5)
  | .fxp a b _ _ => consumersOk a b
  | .expins a b _ _ => consumersOk a b
  | .expext a b _ _ => consumersOk a b
  | .frcp a b _ _ => consumersOk a b
  | .frsq a b _ _ => consumersOk a b
  | .badd2 a b _ _ v => consumersOk a b && decide (v.toNat ≤ 5)
  | .bsub2 a b _ _ v => consumersOk a b && decide (v.toNat ≤ 5)
  | .bmul2 a b _ _ v => consumersOk a b && decide (v.toNat ≤ 5)
  | .bfma2 a b _ _ v => consumersOk a b && decide (v.toNat ≤ 5)
  | .bmin2 a b _ _ => consumersOk a b
  | .bmax2 a b _ _ => consumersOk a b
  | .i2f a b _ _ v => consumersOk a b && decide (v.toNat ≤ 5)
  | .f2i a b _ _ v => consumersOk a b && decide (v.toNat ≤ 5)
  | .f2b a b _ _ v => consumersOk a b && decide (v.toNat ≤ 5)
  | .b2f a b _ _ => consumersOk a b
  | .b2fh a b _ _ => consumersOk a b
  | .esel a b _ _ => consumersOk a b
  | .steer a b _ _ => consumersOk a b
  | .merge a b _ _ => consumersOk a b
  | .mergeSecondEmit _ _ => true
  | .gate a b _ _ => consumersOk a b
  | .dup a b _ _ => consumersOk a b
  | .dupCopyEmit _ _ => true
  | .acc a b _ _ v => consumersOk a b && decide (v.toNat ≤ 5)
  | .tagset a b _ _ => consumersOk a b
  | .pass a b _ _ => consumersOk a b
  | .ends a b _ _ => consumersOk a b
  | .cnt a b _ _ => consumersOk a b
  | .agl _ => true
  | .ags _ => true
  | .agc _ => true
  | .agAccess _ _ => true
  | .rin a b _ => consumersOk a b
  | .rout _ => true
  | .rep a b _ => consumersOk a b
  | .outputPortWrite _ _ => true
  | .portHeldTokenWrite _ _ => true
  | .tokenArrival _ _ => true
  | .queueTurnRelease _ _ _ => true
  | .markerAlign _ _ => true
  | .rsuFire _ _ => true
  | .rsuScanEmit _ _ => true
  | .pagePlace _ _ => true
  | .pageEvict _ => true
  | .backEdgeMarkerTake _ _ _ _ => true
  | .forcedCut _ _ => true
  | .queueLaunch _ _ => true
  | .instanceEnd _ _ => true
  | .schedulerPreempt _ _ => true
  | .schedulerResume _ _ => true
  | .wake _ => true
  | .idleTimeout _ => true
  | .asyncTrapDelivery _ => true
  | .breakpointMatch _ => true
  | .recordBacklogWrite _ => true
  | .xdone _ _ => true
  | .instctlPreempt _ _ => true
  | .instctlResume _ _ => true
  | .instctlEnd _ _ => true
  | .tlbInvalidate _ _ => true
  | .qSync _ _ => true
  | .qSyncHalt _ _ => true
  | .ctxdataRead _ => true
  | .ctxdataWrite _ _ => true
  | .trcdataRead _ => true
  | .traceUnfreeze _ => true
  | .traceFreeze _ => true
  | .sample _ => true
  | .timeStep _ => true
  | .timeSlew _ => true
  | .registerWrite _ _ _ => true
  | .queueNotify _ _ => true
  | .queueNotifyIndexed _ _ => true
  | .hostPublication _ _ => true
  | .ingestArrival _ _ _ => true
  | .ingestDeadline _ _ => true
  | .hostApertureWrite _ _ _ => true
  | .hostApertureRead _ _ _ => true
  | .arcArrival _ _ _ => true
  | .arcAdvanceReturn _ _ _ => true
  | .linkBeatError _ => true
  | .linkDown _ => true
  | .linkReturn _ => true
  | .attachErr _ => true
  | .thermal _ => true
  | .meterFlush _ => true
  | .intervalEnd => true
  | .calibrationTrim => true
  | .checkpointTimer _ => true
  | .checkpointComplete _ => true
  | .checkpointImageWrite _ => true
  | .create _ _ _ _ => true
  | .destroy _ _ _ _ => true
  | .resize _ _ _ _ => true
  | .assign _ _ _ _ => true
  | .release _ _ _ _ => true
  | .partitionReset _ _ _ _ => true
  | .restore _ _ _ _ => true
  | .setpool _ _ _ _ => true
  | .arcs _ _ _ _ => true
  | .retire _ _ _ _ => true
  | .enset _ _ _ _ => true
  | .status => true
  | .logrd _ => true
  | .enrd _ _ => true
  | .wearrd _ => true
  | .attest _ => true
  | .pctl _ _ _ _ _ => true
  | .dump _ _ _ => true
  | .kekset _ _ _ => true
  | .reset _ _ => true
  | .fwload _ _ _ _ _ => true
  | .unlockNonce => true
  | .unlockToken _ => true
  | .provision _ _ => true
  | .standbyBoot => true
  | .mainPowerGood _ _ _ => true
  | .calibrationDone => true
  | .meminitDone => true
  | .attachTrainingDone _ => true
  | .ready => true
  | .arcSlotSend _ _ => true
  | .powerLoss => true

end Sys2Proof
end

