-- ==== Sys2Proof/Decode.lean ====
section
/-! DEFINITION. The two instruction streams of Wencia (R26 to R46): a decoder of control words and a
decoder of element words, total on any bits, which reject by name; after them the encoder. -/

namespace Sys2Proof

/-- Why a word is no instruction. For a control word each of them raises ILL (R29 steps 2 to 4); for
an element word each of them is PAGE_BAD (R51). -/
inductive DecodeError where
  /-- The major, the fn value or the element opcode is unassigned (R29 step 2, R46). -/
  | unassigned
  /-- A field that the form does not use is not zero (R29 step 3). -/
  | unusedField
  /-- A reserved form or value, or a predicate, handle or register group out of range (R29 steps 3 and 4). -/
  | outOfRange
  deriving DecidableEq, Repr

/-- The `n` bits of the word `w` from bit `lo` up. -/
def fld (w lo n : Nat) : BitVec n := BitVec.ofNat n (w / 2 ^ lo)

/-- The register ALU of major 0x00, selected by fn (R32). -/
def candAlu (w : Nat) : Option Instr :=
  match w % 2048 with
    | 0 => some (.add (fld w 21 5) (fld w 16 5) (fld w 11 5))
    | 1 => some (.sub (fld w 21 5) (fld w 16 5) (fld w 11 5))
    | 2 => some (.mul (fld w 21 5) (fld w 16 5) (fld w 11 5))
    | 3 => some (.mulh (fld w 21 5) (fld w 16 5) (fld w 11 5))
    | 4 => some (.div (fld w 21 5) (fld w 16 5) (fld w 11 5))
    | 5 => some (.rem (fld w 21 5) (fld w 16 5) (fld w 11 5))
    | 8 => some (.and (fld w 21 5) (fld w 16 5) (fld w 11 5))
    | 9 => some (.or (fld w 21 5) (fld w 16 5) (fld w 11 5))
    | 10 => some (.xor (fld w 21 5) (fld w 16 5) (fld w 11 5))
    | 11 => some (.andn (fld w 21 5) (fld w 16 5) (fld w 11 5))
    | 16 => some (.shl (fld w 21 5) (fld w 16 5) (fld w 11 5))
    | 17 => some (.shr (fld w 21 5) (fld w 16 5) (fld w 11 5))
    | 18 => some (.sar (fld w 21 5) (fld w 16 5) (fld w 11 5))
    | 24 => some (.min (fld w 21 5) (fld w 16 5) (fld w 11 5))
    | 25 => some (.max (fld w 21 5) (fld w 16 5) (fld w 11 5))
    | 26 => some (.minu (fld w 21 5) (fld w 16 5) (fld w 11 5))
    | 27 => some (.maxu (fld w 21 5) (fld w 16 5) (fld w 11 5))
    | 32 => some (.clz (fld w 21 5) (fld w 16 5))
    | 33 => some (.ctz (fld w 21 5) (fld w 16 5))
    | 34 => some (.popc (fld w 21 5) (fld w 16 5))
    | 40 => some (.sext8 (fld w 21 5) (fld w 16 5))
    | 41 => some (.sext16 (fld w 21 5) (fld w 16 5))
    | 42 => some (.sext32 (fld w 21 5) (fld w 16 5))
    | 44 => some (.zext8 (fld w 21 5) (fld w 16 5))
    | 45 => some (.zext16 (fld w 21 5) (fld w 16 5))
    | 46 => some (.zext32 (fld w 21 5) (fld w 16 5))
    | _ => none

/-- `cmp.cc` of major 0x05 (R97). -/
def candCmp (w : Nat) : Option Instr :=
  match w % 2048 with
    | 0 => some (.cmpEq (fld w 21 5) (fld w 16 5) (fld w 11 5))
    | 1 => some (.cmpNe (fld w 21 5) (fld w 16 5) (fld w 11 5))
    | 2 => some (.cmpLt (fld w 21 5) (fld w 16 5) (fld w 11 5))
    | 3 => some (.cmpGe (fld w 21 5) (fld w 16 5) (fld w 11 5))
    | 4 => some (.cmpLtu (fld w 21 5) (fld w 16 5) (fld w 11 5))
    | 5 => some (.cmpGeu (fld w 21 5) (fld w 16 5) (fld w 11 5))
    | _ => none

/-- Major 0x10: `br` is the encoding with predicate 0 and negate 0 (R100). -/
def candBranch (w : Nat) : Option Instr :=
  if w / 4194304 % 16 = 0 then some (.br (fld w 0 22)) else some (.bc (fld w 23 3) (fld w 22 1) (fld w 0 22))

/-- Register jumps of major 0x12 (R102). -/
def candJump (w : Nat) : Option Instr :=
  match w % 2048 with
    | 0 => some (.jmp (fld w 16 5))
    | 2 => some .ret
    | _ => none

/-- Threads and barrier of major 0x14 (R105 to R110). -/
def candThread (w : Nat) : Option Instr :=
  match w % 2048 with
    | 0 => some (.thrSpawn (fld w 21 5) (fld w 16 5) (fld w 11 5))
    | 1 => some .thrExit
    | 2 => some .thrYield
    | 3 => some (.bar (fld w 16 5))
    | _ => none

/-- Loads of major 0x18: the kind stands in [15:13] (R33); kind 7 is reserved. -/
def candLoad (w : Nat) : Option Instr :=
  match w / 8192 % 8 with
    | 0 => some (.ld8 (fld w 21 5) (fld w 16 5) (fld w 11 2) (fld w 0 11))
    | 1 => some (.ld16 (fld w 21 5) (fld w 16 5) (fld w 11 2) (fld w 0 11))
    | 2 => some (.ld32 (fld w 21 5) (fld w 16 5) (fld w 11 2) (fld w 0 11))
    | 3 => some (.ld64 (fld w 21 5) (fld w 16 5) (fld w 11 2) (fld w 0 11))
    | 4 => some (.ld8s (fld w 21 5) (fld w 16 5) (fld w 11 2) (fld w 0 11))
    | 5 => some (.ld16s (fld w 21 5) (fld w 16 5) (fld w 11 2) (fld w 0 11))
    | 6 => some (.ld32s (fld w 21 5) (fld w 16 5) (fld w 11 2) (fld w 0 11))
    | _ => none

/-- Stores of major 0x19: kinds 4 to 7 are reserved (R33). -/
def candStore (w : Nat) : Option Instr :=
  match w / 8192 % 8 with
    | 0 => some (.st8 (fld w 21 5) (fld w 16 5) (fld w 11 2) (fld w 0 11))
    | 1 => some (.st16 (fld w 21 5) (fld w 16 5) (fld w 11 2) (fld w 0 11))
    | 2 => some (.st32 (fld w 21 5) (fld w 16 5) (fld w 11 2) (fld w 0 11))
    | 3 => some (.st64 (fld w 21 5) (fld w 16 5) (fld w 11 2) (fld w 0 11))
    | _ => none

/-- Pairs of major 0x1A: [15] selects the form (R33). -/
def candPair (w : Nat) : Option Instr :=
  if w / 32768 % 2 = 0 then some (.ldp (fld w 21 5) (fld w 16 5) (fld w 13 2) (fld w 0 13)) else some (.stp (fld w 21 5) (fld w 16 5) (fld w 13 2) (fld w 0 13))

/-- Atomics of major 0x1B: the operation stands in [10:7] (R34). -/
def candAtomic (w : Nat) : Option Instr :=
  match w / 128 % 16 with
    | 0 => some (.atAdd (fld w 21 5) (fld w 16 5) (fld w 11 5) (fld w 5 2) (fld w 3 2) (fld w 1 2))
    | 1 => some (.atAnd (fld w 21 5) (fld w 16 5) (fld w 11 5) (fld w 5 2) (fld w 3 2) (fld w 1 2))
    | 2 => some (.atOr (fld w 21 5) (fld w 16 5) (fld w 11 5) (fld w 5 2) (fld w 3 2) (fld w 1 2))
    | 3 => some (.atXor (fld w 21 5) (fld w 16 5) (fld w 11 5) (fld w 5 2) (fld w 3 2) (fld w 1 2))
    | 4 => some (.atMin (fld w 21 5) (fld w 16 5) (fld w 11 5) (fld w 5 2) (fld w 3 2) (fld w 1 2))
    | 5 => some (.atMax (fld w 21 5) (fld w 16 5) (fld w 11 5) (fld w 5 2) (fld w 3 2) (fld w 1 2))
    | 6 => some (.atMinu (fld w 21 5) (fld w 16 5) (fld w 11 5) (fld w 5 2) (fld w 3 2) (fld w 1 2))
    | 7 => some (.atMaxu (fld w 21 5) (fld w 16 5) (fld w 11 5) (fld w 5 2) (fld w 3 2) (fld w 1 2))
    | 8 => some (.atSwap (fld w 21 5) (fld w 16 5) (fld w 11 5) (fld w 5 2) (fld w 3 2) (fld w 1 2))
    | 9 => some (.atCas (fld w 21 5) (fld w 16 5) (fld w 11 5) (fld w 5 2) (fld w 3 2) (fld w 1 2))
    | 10 => some (.atLd (fld w 21 5) (fld w 16 5) (fld w 5 2) (fld w 3 2) (fld w 1 2))
    | 11 => some (.atSt (fld w 21 5) (fld w 16 5) (fld w 11 5) (fld w 5 2) (fld w 3 2) (fld w 1 2))
    | _ => none

/-- Major 0x1C: fn[4:0] is the operation (R35). -/
def candPhase (w : Nat) : Option Instr :=
  match w % 32 with
    | 0 => some .phaseEnd
    | 1 => some .phaseSync
    | 2 => some (.pub (fld w 16 5) (fld w 11 5))
    | 3 => some .fenceE
    | 4 => some (.pf (fld w 16 5))
    | 5 => some (.spill (fld w 21 5) (fld w 5 6))
    | 6 => some (.fill (fld w 21 5) (fld w 5 6))
    | _ => none

/-- Waits of major 0x1D (R33). -/
def candWait (w : Nat) : Option Instr :=
  if w / 32768 % 2 = 0 then some (.waitEq (fld w 21 5) (fld w 16 5) (fld w 13 2) (fld w 11 2) (fld w 0 11)) else some (.waitNe (fld w 21 5) (fld w 16 5) (fld w 13 2) (fld w 11 2) (fld w 0 11))

/-- Major 0x20: fn[2:0] is the operation (R36). -/
def candRing (w : Nat) : Option Instr :=
  match w % 8 with
    | 0 => some (.ringDef (fld w 21 5) (fld w 16 5))
    | 1 => some (.ringWait (fld w 21 5) (fld w 16 5))
    | 2 => some (.ringRoom (fld w 21 5) (fld w 16 5))
    | 3 => some (.ringAdv (fld w 21 5) (fld w 16 5))
    | 4 => some (.ringPost (fld w 21 5) (fld w 16 5))
    | 5 => some (.ringSlot (fld w 21 5) (fld w 16 5) (fld w 11 5))
    | 6 => some (.ringStat (fld w 21 5) (fld w 16 5))
    | _ => none

/-- Matrix commands of major 0x28: fn stands in [25:20], and fn[5] marks the extension word (R37). Bit 0 of x tells the ring forms from the A-store forms (R275, R277). -/
def candMatrix (w : Nat) (x : Half) : Option Instr :=
  match w / 1048576 % 64 with
    | 32 => some (.mxCfg (fld w 11 5) x)
    | 1 => some (.mxLdb (fld w 11 5) (fld w 6 5) (fld w 0 1))
    | 33 => some (.mxLdbGroups (fld w 11 5) (fld w 6 5) (fld w 0 1) x)
    | 2 => if w % 2 = 1 then some (.mxRunRing (fld w 16 4) (fld w 6 5) (fld w 3 1) (fld w 1 2)) else some (.mxRunAstore (fld w 11 5) (fld w 6 5) (fld w 3 1) (fld w 1 2))
    | 34 => some (.mxRunStride (fld w 11 5) (fld w 6 5) (fld w 3 1) (fld w 1 2) x)
    | 3 => some (.mxClr (fld w 6 5))
    | 4 => if w % 2 = 1 then some (.mxOutRing (fld w 16 4) (fld w 6 5) (fld w 1 1)) else some (.mxOutAstore (fld w 11 5) (fld w 6 5) (fld w 1 1))
    | 36 => if w % 2 = 1 then some (.mxOutRingExt (fld w 16 4) (fld w 6 5) (fld w 1 1) x) else some (.mxOutAstoreExt (fld w 11 5) (fld w 6 5) (fld w 1 1) x)
    | 5 => some .mxWait
    | _ => none

/-- Sum-product commands of major 0x30 (R37, R300). x[4] tells the ring forms (R303) and the set form of `sp.norm` (R305); extension bit [19] of `sp.st` is REC (R304). -/
def candSum (w : Nat) (x : Half) : Option Instr :=
  match w / 1048576 % 64 with
    | 32 => some (.spCfg (fld w 11 5) x)
    | 33 => some (.spShape (fld w 11 5) (fld w 6 5) (fld w 0 6) x)
    | 2 => if w / 16 % 2 = 1 then some (.spLdRing (fld w 16 4) (fld w 6 5) (fld w 0 4)) else some (.spLdAstore (fld w 11 5) (fld w 6 5) (fld w 0 4))
    | 34 => some (.spLdRecord (fld w 11 5) (fld w 6 5) (fld w 0 4))
    | 3 => if w / 16 % 2 = 1 then some (.spStRing (fld w 16 4) (fld w 6 5) (fld w 0 4)) else some (.spStAstore (fld w 11 5) (fld w 6 5) (fld w 0 4))
    | 35 => if x.toNat / 524288 % 2 = 1 then some (.spStRecord (fld w 11 5) (fld w 6 5) (fld w 0 4) x) else some (.spStExt (fld w 4 1) (fld w 16 4) (fld w 11 5) (fld w 6 5) (fld w 0 4) x)
    | 4 => some (.spUp (fld w 11 5) (fld w 6 5) (fld w 0 6))
    | 36 => some (.spUpNosave (fld w 11 5) (fld w 6 5) (fld w 0 6) x)
    | 5 => some (.spDown (fld w 11 5) (fld w 6 5) (fld w 0 6))
    | 37 => some (.spDownAcc (fld w 11 5) (fld w 6 5) (fld w 0 6) x)
    | 6 => if w / 16 % 2 = 1 then some (.spNormSet (fld w 6 5) (fld w 0 4)) else some (.spNorm (fld w 0 4))
    | 7 => some .spWait
    | _ => none

/-- The copy engine, major 0x38 (R37). -/
def candCopy (w : Nat) (x : Half) : Option Instr :=
  match w / 1048576 % 64 with
    | 0 => some (.cp (fld w 11 5) (fld w 6 5) (fld w 2 1) (fld w 0 2))
    | 32 => some (.cpOffset (fld w 11 5) (fld w 6 5) (fld w 2 1) (fld w 0 2) x)
    | 33 => some (.cpExpect (fld w 11 5) (fld w 6 5) (fld w 0 2) x)
    | _ => none

/-- Memory-side engines, major 0x39 (R37). -/
def candMse (w : Nat) (x : Half) : Option Instr :=
  match w / 1048576 % 64 with
    | 32 => some (.msSub (fld w 16 4) (fld w 11 5) x)
    | 1 => some (.msPull (fld w 16 4) (fld w 11 5) (fld w 6 5))
    | 33 => some (.msPullDone (fld w 16 4) (fld w 11 5) (fld w 6 5) x)
    | 2 => some (.msStop (fld w 16 4))
    | _ => none

/-- Queues, major 0x3A (R31). -/
def candQueue (w : Nat) : Option Instr :=
  match w % 2048 with
    | 0 => some (.qClaim (fld w 21 5) (fld w 16 5))
    | 1 => some (.qPub (fld w 16 5) (fld w 11 5))
    | 2 => some (.qWait (fld w 16 5))
    | 3 => some (.qNote (fld w 16 5))
    | _ => none

/-- Graph, marker and page, major 0x3C: fn[3:0] (R38). -/
def candGraph (w : Nat) : Option Instr :=
  match w % 16 with
    | 0 => some (.grLaunch (fld w 21 5) (fld w 16 5) (fld w 11 5))
    | 1 => some .fireBegin
    | 2 => some .fireEnd
    | 3 => some (.modeReq (fld w 16 5))
    | 4 => some (.markInj (fld w 16 5) (fld w 11 5))
    | 5 => some (.markWait (fld w 16 5))
    | 6 => some (.pageReq (fld w 16 5))
    | 7 => some (.pageDrop (fld w 16 5))
    | 8 => some (.rmonRd (fld w 21 5) (fld w 16 5))
    | _ => none

/-- Energy, major 0x3D (R31). -/
def candEnergy (w : Nat) : Option Instr :=
  match w % 2048 with
    | 0 => some (.enRd (fld w 21 5) (fld w 16 5))
    | 1 => some (.enSub (fld w 21 5) (fld w 16 5) (fld w 11 5))
    | 2 => some (.enSet (fld w 16 5) (fld w 11 5))
    | _ => none

/-- System, trap and debug, major 0x3E: fn stands in [25:16] (R39). -/
def candSystem (w : Nat) : Option Instr :=
  match w / 65536 % 1024 with
    | 0 => some (.trap (fld w 0 6))
    | 1 => some .tret
    | 2 => some (.csrRd (fld w 11 5) (fld w 0 11))
    | 3 => some (.csrWr (fld w 11 5) (fld w 0 11))
    | 4 => some .idle
    | 5 => some (.timeRd (fld w 11 5))
    | 16 => some (.dbgBrk (fld w 0 6))
    | 17 => some (.trcMark (fld w 6 5) (fld w 0 6))
    | 18 => some .trcFrz
    | 19 => some .ckptReq
    | _ => none

/-- The control instruction that a first word `w` can only be, by its major and fn (R31), with the
extension word `x` for the forms that have one (R37). -/
def candidate (w : Nat) (x : Half) : Option Instr :=
  match w / 67108864 with
  | 0 => candAlu w
  | 1 => some (.addi (fld w 21 5) (fld w 16 5) (fld w 0 16))
  | 2 => some (.movi (fld w 21 5) (fld w 0 16))
  | 3 => some (.movhi (fld w 21 5) (fld w 0 16))
  | 4 => some (.lea (fld w 21 5) (fld w 16 5) (fld w 11 5) (fld w 0 3))
  | 5 => candCmp w
  | 6 => some (.bfx (fld w 21 5) (fld w 16 5) (fld w 6 6) (fld w 0 6))
  | 7 => some (.bfi (fld w 21 5) (fld w 16 5) (fld w 6 6) (fld w 0 6))
  | 8 => some (.sel (fld w 21 5) (fld w 16 5) (fld w 11 5) (fld w 3 1) (fld w 0 3))
  | 16 => candBranch w
  | 17 => some (.call (fld w 0 22))
  | 18 => candJump w
  | 19 => some (.loop (fld w 16 5) (fld w 0 16))
  | 20 => candThread w
  | 24 => candLoad w
  | 25 => candStore w
  | 26 => candPair w
  | 27 => candAtomic w
  | 28 => candPhase w
  | 29 => candWait w
  | 32 => candRing w
  | 40 => candMatrix w x
  | 48 => candSum w x
  | 56 => candCopy w x
  | 57 => candMse w x
  | 58 => candQueue w
  | 60 => candGraph w
  | 61 => candEnergy w
  | 62 => candSystem w
  | _ => none

/-- The element operation that a non-zero element word can only be, by its opcode (R46). -/
def candidateElem (w : Nat) : Option Instr :=
  match w / 16777216 with
  | 1 => some (.iadd (fld w 15 9) (fld w 6 9) (fld w 4 2) (fld w 3 1) (fld w 0 3))
  | 2 => some (.isub (fld w 15 9) (fld w 6 9) (fld w 4 2) (fld w 3 1) (fld w 0 3))
  | 3 => some (.imul (fld w 15 9) (fld w 6 9) (fld w 4 2) (fld w 3 1) (fld w 0 3))
  | 4 => some (.imulh (fld w 15 9) (fld w 6 9) (fld w 4 2) (fld w 3 1))
  | 5 => some (.iand (fld w 15 9) (fld w 6 9) (fld w 4 2) (fld w 3 1))
  | 6 => some (.ior (fld w 15 9) (fld w 6 9) (fld w 4 2) (fld w 3 1))
  | 7 => some (.ixor (fld w 15 9) (fld w 6 9) (fld w 4 2) (fld w 3 1))
  | 8 => some (.ishl (fld w 15 9) (fld w 6 9) (fld w 4 2) (fld w 3 1))
  | 9 => some (.ishr (fld w 15 9) (fld w 6 9) (fld w 4 2) (fld w 3 1))
  | 10 => some (.isar (fld w 15 9) (fld w 6 9) (fld w 4 2) (fld w 3 1))
  | 11 => some (.imin (fld w 15 9) (fld w 6 9) (fld w 4 2) (fld w 3 1))
  | 12 => some (.imax (fld w 15 9) (fld w 6 9) (fld w 4 2) (fld w 3 1))
  | 13 => some (.iminu (fld w 15 9) (fld w 6 9) (fld w 4 2) (fld w 3 1))
  | 14 => some (.imaxu (fld w 15 9) (fld w 6 9) (fld w 4 2) (fld w 3 1))
  | 15 => some (.iabs (fld w 15 9) (fld w 6 9) (fld w 4 2) (fld w 3 1) (fld w 0 3))
  | 16 => some (.icmp (fld w 15 9) (fld w 6 9) (fld w 4 2) (fld w 3 1) (fld w 0 3))
  | 32 => some (.fadd (fld w 15 9) (fld w 6 9) (fld w 4 2) (fld w 3 1) (fld w 0 3))
  | 33 => some (.fsub (fld w 15 9) (fld w 6 9) (fld w 4 2) (fld w 3 1) (fld w 0 3))
  | 34 => some (.fmul (fld w 15 9) (fld w 6 9) (fld w 4 2) (fld w 3 1) (fld w 0 3))
  | 35 => some (.ffma (fld w 15 9) (fld w 6 9) (fld w 4 2) (fld w 3 1) (fld w 0 3))
  | 36 => some (.fmin (fld w 15 9) (fld w 6 9) (fld w 4 2) (fld w 3 1))
  | 37 => some (.fmax (fld w 15 9) (fld w 6 9) (fld w 4 2) (fld w 3 1))
  | 38 => some (.fabs (fld w 15 9) (fld w 6 9) (fld w 4 2) (fld w 3 1))
  | 39 => some (.fneg (fld w 15 9) (fld w 6 9) (fld w 4 2) (fld w 3 1))
  | 40 => some (.fcmp (fld w 15 9) (fld w 6 9) (fld w 4 2) (fld w 3 1) (fld w 0 3))
  | 41 => some (.rndi (fld w 15 9) (fld w 6 9) (fld w 4 2) (fld w 3 1) (fld w 0 3))
  | 42 => some (.fxp (fld w 15 9) (fld w 6 9) (fld w 4 2) (fld w 3 1))
  | 43 => some (.expins (fld w 15 9) (fld w 6 9) (fld w 4 2) (fld w 3 1))
  | 44 => some (.expext (fld w 15 9) (fld w 6 9) (fld w 4 2) (fld w 3 1))
  | 45 => some (.frcp (fld w 15 9) (fld w 6 9) (fld w 4 2) (fld w 3 1))
  | 46 => some (.frsq (fld w 15 9) (fld w 6 9) (fld w 4 2) (fld w 3 1))
  | 48 => some (.badd2 (fld w 15 9) (fld w 6 9) (fld w 4 2) (fld w 3 1) (fld w 0 3))
  | 49 => some (.bsub2 (fld w 15 9) (fld w 6 9) (fld w 4 2) (fld w 3 1) (fld w 0 3))
  | 50 => some (.bmul2 (fld w 15 9) (fld w 6 9) (fld w 4 2) (fld w 3 1) (fld w 0 3))
  | 51 => some (.bfma2 (fld w 15 9) (fld w 6 9) (fld w 4 2) (fld w 3 1) (fld w 0 3))
  | 52 => some (.bmin2 (fld w 15 9) (fld w 6 9) (fld w 4 2) (fld w 3 1))
  | 53 => some (.bmax2 (fld w 15 9) (fld w 6 9) (fld w 4 2) (fld w 3 1))
  | 56 => some (.i2f (fld w 15 9) (fld w 6 9) (fld w 4 2) (fld w 3 1) (fld w 0 3))
  | 57 => some (.f2i (fld w 15 9) (fld w 6 9) (fld w 4 2) (fld w 3 1) (fld w 0 3))
  | 58 => some (.f2b (fld w 15 9) (fld w 6 9) (fld w 4 2) (fld w 3 1) (fld w 0 3))
  | 59 => some (.b2f (fld w 15 9) (fld w 6 9) (fld w 4 2) (fld w 3 1))
  | 60 => some (.b2fh (fld w 15 9) (fld w 6 9) (fld w 4 2) (fld w 3 1))
  | 64 => some (.esel (fld w 15 9) (fld w 6 9) (fld w 4 2) (fld w 3 1))
  | 65 => some (.steer (fld w 15 9) (fld w 6 9) (fld w 4 2) (fld w 3 1))
  | 66 => some (.merge (fld w 15 9) (fld w 6 9) (fld w 4 2) (fld w 3 1))
  | 67 => some (.gate (fld w 15 9) (fld w 6 9) (fld w 4 2) (fld w 3 1))
  | 68 => some (.dup (fld w 15 9) (fld w 6 9) (fld w 4 2) (fld w 3 1))
  | 69 => some (.acc (fld w 15 9) (fld w 6 9) (fld w 4 2) (fld w 3 1) (fld w 0 3))
  | 70 => some (.tagset (fld w 15 9) (fld w 6 9) (fld w 4 2) (fld w 3 1))
  | 71 => some (.pass (fld w 15 9) (fld w 6 9) (fld w 4 2) (fld w 3 1))
  | 72 => some (.ends (fld w 15 9) (fld w 6 9) (fld w 4 2) (fld w 3 1))
  | 73 => some (.cnt (fld w 15 9) (fld w 6 9) (fld w 4 2) (fld w 3 1))
  | 80 => some (.agl (fld w 0 4))
  | 81 => some (.ags (fld w 0 4))
  | 82 => some (.agc (fld w 0 4))
  | 84 => some (.rin (fld w 15 9) (fld w 6 9) (fld w 0 4))
  | 85 => some (.rout (fld w 0 4))
  | 86 => some (.rep (fld w 15 9) (fld w 6 9) (fld w 0 4))
  | _ => none

/-- The words of an instruction, first word first, as R26, R37 and R43 to R46 lay them out; an event
has none. -/
def encodeNat : Instr → List Nat
  | .add d a b => [0x0 + d.toNat * 2097152 + a.toNat * 65536 + b.toNat * 2048]
  | .sub d a b => [0x1 + d.toNat * 2097152 + a.toNat * 65536 + b.toNat * 2048]
  | .mul d a b => [0x2 + d.toNat * 2097152 + a.toNat * 65536 + b.toNat * 2048]
  | .mulh d a b => [0x3 + d.toNat * 2097152 + a.toNat * 65536 + b.toNat * 2048]
  | .div d a b => [0x4 + d.toNat * 2097152 + a.toNat * 65536 + b.toNat * 2048]
  | .rem d a b => [0x5 + d.toNat * 2097152 + a.toNat * 65536 + b.toNat * 2048]
  | .and d a b => [0x8 + d.toNat * 2097152 + a.toNat * 65536 + b.toNat * 2048]
  | .or d a b => [0x9 + d.toNat * 2097152 + a.toNat * 65536 + b.toNat * 2048]
  | .xor d a b => [0xa + d.toNat * 2097152 + a.toNat * 65536 + b.toNat * 2048]
  | .andn d a b => [0xb + d.toNat * 2097152 + a.toNat * 65536 + b.toNat * 2048]
  | .shl d a b => [0x10 + d.toNat * 2097152 + a.toNat * 65536 + b.toNat * 2048]
  | .shr d a b => [0x11 + d.toNat * 2097152 + a.toNat * 65536 + b.toNat * 2048]
  | .sar d a b => [0x12 + d.toNat * 2097152 + a.toNat * 65536 + b.toNat * 2048]
  | .min d a b => [0x18 + d.toNat * 2097152 + a.toNat * 65536 + b.toNat * 2048]
  | .max d a b => [0x19 + d.toNat * 2097152 + a.toNat * 65536 + b.toNat * 2048]
  | .minu d a b => [0x1a + d.toNat * 2097152 + a.toNat * 65536 + b.toNat * 2048]
  | .maxu d a b => [0x1b + d.toNat * 2097152 + a.toNat * 65536 + b.toNat * 2048]
  | .clz d a => [0x20 + d.toNat * 2097152 + a.toNat * 65536]
  | .ctz d a => [0x21 + d.toNat * 2097152 + a.toNat * 65536]
  | .popc d a => [0x22 + d.toNat * 2097152 + a.toNat * 65536]
  | .sext8 d a => [0x28 + d.toNat * 2097152 + a.toNat * 65536]
  | .sext16 d a => [0x29 + d.toNat * 2097152 + a.toNat * 65536]
  | .sext32 d a => [0x2a + d.toNat * 2097152 + a.toNat * 65536]
  | .zext8 d a => [0x2c + d.toNat * 2097152 + a.toNat * 65536]
  | .zext16 d a => [0x2d + d.toNat * 2097152 + a.toNat * 65536]
  | .zext32 d a => [0x2e + d.toNat * 2097152 + a.toNat * 65536]
  | .addi d a i => [0x4000000 + d.toNat * 2097152 + a.toNat * 65536 + i.toNat]
  | .movi d i => [0x8000000 + d.toNat * 2097152 + i.toNat]
  | .movhi d i => [0xc000000 + d.toNat * 2097152 + i.toNat]
  | .lea d a b s => [0x10000000 + d.toNat * 2097152 + a.toNat * 65536 + b.toNat * 2048 + s.toNat]
  | .cmpEq p a b => [0x14000000 + p.toNat * 2097152 + a.toNat * 65536 + b.toNat * 2048]
  | .cmpNe p a b => [0x14000001 + p.toNat * 2097152 + a.toNat * 65536 + b.toNat * 2048]
  | .cmpLt p a b => [0x14000002 + p.toNat * 2097152 + a.toNat * 65536 + b.toNat * 2048]
  | .cmpGe p a b => [0x14000003 + p.toNat * 2097152 + a.toNat * 65536 + b.toNat * 2048]
  | .cmpLtu p a b => [0x14000004 + p.toNat * 2097152 + a.toNat * 65536 + b.toNat * 2048]
  | .cmpGeu p a b => [0x14000005 + p.toNat * 2097152 + a.toNat * 65536 + b.toNat * 2048]
  | .bfx d a w p => [0x18000000 + d.toNat * 2097152 + a.toNat * 65536 + w.toNat * 64 + p.toNat]
  | .bfi d a w p => [0x1c000000 + d.toNat * 2097152 + a.toNat * 65536 + w.toNat * 64 + p.toNat]
  | .sel d a b n p => [0x20000000 + d.toNat * 2097152 + a.toNat * 65536 + b.toNat * 2048 + n.toNat * 8 + p.toNat]
  | .bc p n o => [0x40000000 + p.toNat * 8388608 + n.toNat * 4194304 + o.toNat]
  | .br o => [0x40000000 + o.toNat]
  | .call o => [0x44000000 + o.toNat]
  | .jmp a => [0x48000000 + a.toNat * 65536]
  | .ret => [0x48000002]
  | .loop a i => [0x4c000000 + a.toNat * 65536 + i.toNat]
  | .thrSpawn d a b => [0x50000000 + d.toNat * 2097152 + a.toNat * 65536 + b.toNat * 2048]
  | .thrExit => [0x50000001]
  | .thrYield => [0x50000002]
  | .bar a => [0x50000003 + a.toNat * 65536]
  | .ld8 d a s o => [0x60000000 + d.toNat * 2097152 + a.toNat * 65536 + s.toNat * 2048 + o.toNat]
  | .ld16 d a s o => [0x60002000 + d.toNat * 2097152 + a.toNat * 65536 + s.toNat * 2048 + o.toNat]
  | .ld32 d a s o => [0x60004000 + d.toNat * 2097152 + a.toNat * 65536 + s.toNat * 2048 + o.toNat]
  | .ld64 d a s o => [0x60006000 + d.toNat * 2097152 + a.toNat * 65536 + s.toNat * 2048 + o.toNat]
  | .ld8s d a s o => [0x60008000 + d.toNat * 2097152 + a.toNat * 65536 + s.toNat * 2048 + o.toNat]
  | .ld16s d a s o => [0x6000a000 + d.toNat * 2097152 + a.toNat * 65536 + s.toNat * 2048 + o.toNat]
  | .ld32s d a s o => [0x6000c000 + d.toNat * 2097152 + a.toNat * 65536 + s.toNat * 2048 + o.toNat]
  | .st8 d a s o => [0x64000000 + d.toNat * 2097152 + a.toNat * 65536 + s.toNat * 2048 + o.toNat]
  | .st16 d a s o => [0x64002000 + d.toNat * 2097152 + a.toNat * 65536 + s.toNat * 2048 + o.toNat]
  | .st32 d a s o => [0x64004000 + d.toNat * 2097152 + a.toNat * 65536 + s.toNat * 2048 + o.toNat]
  | .st64 d a s o => [0x64006000 + d.toNat * 2097152 + a.toNat * 65536 + s.toNat * 2048 + o.toNat]
  | .ldp d a s o => [0x68000000 + d.toNat * 2097152 + a.toNat * 65536 + s.toNat * 8192 + o.toNat]
  | .stp d a s o => [0x68008000 + d.toNat * 2097152 + a.toNat * 65536 + s.toNat * 8192 + o.toNat]
  | .atAdd d a b z s c => [0x6c000000 + d.toNat * 2097152 + a.toNat * 65536 + b.toNat * 2048 + z.toNat * 32 + s.toNat * 8 + c.toNat * 2]
  | .atAnd d a b z s c => [0x6c000080 + d.toNat * 2097152 + a.toNat * 65536 + b.toNat * 2048 + z.toNat * 32 + s.toNat * 8 + c.toNat * 2]
  | .atOr d a b z s c => [0x6c000100 + d.toNat * 2097152 + a.toNat * 65536 + b.toNat * 2048 + z.toNat * 32 + s.toNat * 8 + c.toNat * 2]
  | .atXor d a b z s c => [0x6c000180 + d.toNat * 2097152 + a.toNat * 65536 + b.toNat * 2048 + z.toNat * 32 + s.toNat * 8 + c.toNat * 2]
  | .atMin d a b z s c => [0x6c000200 + d.toNat * 2097152 + a.toNat * 65536 + b.toNat * 2048 + z.toNat * 32 + s.toNat * 8 + c.toNat * 2]
  | .atMax d a b z s c => [0x6c000280 + d.toNat * 2097152 + a.toNat * 65536 + b.toNat * 2048 + z.toNat * 32 + s.toNat * 8 + c.toNat * 2]
  | .atMinu d a b z s c => [0x6c000300 + d.toNat * 2097152 + a.toNat * 65536 + b.toNat * 2048 + z.toNat * 32 + s.toNat * 8 + c.toNat * 2]
  | .atMaxu d a b z s c => [0x6c000380 + d.toNat * 2097152 + a.toNat * 65536 + b.toNat * 2048 + z.toNat * 32 + s.toNat * 8 + c.toNat * 2]
  | .atSwap d a b z s c => [0x6c000400 + d.toNat * 2097152 + a.toNat * 65536 + b.toNat * 2048 + z.toNat * 32 + s.toNat * 8 + c.toNat * 2]
  | .atCas d a b z s c => [0x6c000480 + d.toNat * 2097152 + a.toNat * 65536 + b.toNat * 2048 + z.toNat * 32 + s.toNat * 8 + c.toNat * 2]
  | .atLd d a z s c => [0x6c000500 + d.toNat * 2097152 + a.toNat * 65536 + z.toNat * 32 + s.toNat * 8 + c.toNat * 2]
  | .atSt d a b z s c => [0x6c000580 + d.toNat * 2097152 + a.toNat * 65536 + b.toNat * 2048 + z.toNat * 32 + s.toNat * 8 + c.toNat * 2]
  | .phaseEnd => [0x70000000]
  | .phaseSync => [0x70000001]
  | .pub a b => [0x70000002 + a.toNat * 65536 + b.toNat * 2048]
  | .fenceE => [0x70000003]
  | .pf a => [0x70000004 + a.toNat * 65536]
  | .spill d n => [0x70000005 + d.toNat * 2097152 + n.toNat * 32]
  | .fill d n => [0x70000006 + d.toNat * 2097152 + n.toNat * 32]
  | .waitEq d a s z o => [0x74000000 + d.toNat * 2097152 + a.toNat * 65536 + s.toNat * 8192 + z.toNat * 2048 + o.toNat]
  | .waitNe d a s z o => [0x74008000 + d.toNat * 2097152 + a.toNat * 65536 + s.toNat * 8192 + z.toNat * 2048 + o.toNat]
  | .ringDef h a => [0x80000000 + h.toNat * 2097152 + a.toNat * 65536]
  | .ringWait h a => [0x80000001 + h.toNat * 2097152 + a.toNat * 65536]
  | .ringRoom h a => [0x80000002 + h.toNat * 2097152 + a.toNat * 65536]
  | .ringAdv h a => [0x80000003 + h.toNat * 2097152 + a.toNat * 65536]
  | .ringPost h a => [0x80000004 + h.toNat * 2097152 + a.toNat * 65536]
  | .ringSlot d h b => [0x80000005 + d.toNat * 2097152 + h.toNat * 65536 + b.toNat * 2048]
  | .ringStat d h => [0x80000006 + d.toNat * 2097152 + h.toNat * 65536]
  | .mxCfg a x => [0xa2000000 + a.toNat * 2048, x.toNat]
  | .mxLdb a b m => [0xa0100000 + a.toNat * 2048 + b.toNat * 64 + m.toNat]
  | .mxLdbGroups a b m x => [0xa2100000 + a.toNat * 2048 + b.toNat * 64 + m.toNat, x.toNat]
  | .mxRunRing h b c p => [0xa0200001 + h.toNat * 65536 + b.toNat * 64 + c.toNat * 8 + p.toNat * 2]
  | .mxRunAstore a b c p => [0xa0200000 + a.toNat * 2048 + b.toNat * 64 + c.toNat * 8 + p.toNat * 2]
  | .mxRunStride a b c p x => [0xa2200000 + a.toNat * 2048 + b.toNat * 64 + c.toNat * 8 + p.toNat * 2, x.toNat]
  | .mxClr b => [0xa0300000 + b.toNat * 64]
  | .mxOutRing h b c => [0xa0400001 + h.toNat * 65536 + b.toNat * 64 + c.toNat * 2]
  | .mxOutAstore a b c => [0xa0400000 + a.toNat * 2048 + b.toNat * 64 + c.toNat * 2]
  | .mxOutRingExt h b c x => [0xa2400001 + h.toNat * 65536 + b.toNat * 64 + c.toNat * 2, x.toNat]
  | .mxOutAstoreExt a b c x => [0xa2400000 + a.toNat * 2048 + b.toNat * 64 + c.toNat * 2, x.toNat]
  | .mxWait => [0xa0500000]
  | .mxCommandPerform _ _ => []
  | .spCfg a x => [0xc2000000 + a.toNat * 2048, x.toNat]
  | .spShape a b y x => [0xc2100000 + a.toNat * 2048 + b.toNat * 64 + y.toNat, x.toNat]
  | .spLdAstore a b k => [0xc0200000 + a.toNat * 2048 + b.toNat * 64 + k.toNat]
  | .spLdRing h b k => [0xc0200010 + h.toNat * 65536 + b.toNat * 64 + k.toNat]
  | .spLdRecord a b k => [0xc2200000 + a.toNat * 2048 + b.toNat * 64 + k.toNat, 1]
  | .spStAstore a b k => [0xc0300000 + a.toNat * 2048 + b.toNat * 64 + k.toNat]
  | .spStRing h b k => [0xc0300010 + h.toNat * 65536 + b.toNat * 64 + k.toNat]
  | .spStExt r h a b k x => [0xc2300000 + r.toNat * 16 + h.toNat * 65536 + a.toNat * 2048 + b.toNat * 64 + k.toNat, x.toNat]
  | .spStRecord a b k x => [0xc2300000 + a.toNat * 2048 + b.toNat * 64 + k.toNat, x.toNat]
  | .spUp a b y => [0xc0400000 + a.toNat * 2048 + b.toNat * 64 + y.toNat]
  | .spUpNosave a b y x => [0xc2400000 + a.toNat * 2048 + b.toNat * 64 + y.toNat, x.toNat]
  | .spDown a b y => [0xc0500000 + a.toNat * 2048 + b.toNat * 64 + y.toNat]
  | .spDownAcc a b y x => [0xc2500000 + a.toNat * 2048 + b.toNat * 64 + y.toNat, x.toNat]
  | .spNorm k => [0xc0600000 + k.toNat]
  | .spNormSet b k => [0xc0600010 + b.toNat * 64 + k.toNat]
  | .spWait => [0xc0700000]
  | .skCommandPerform _ _ => []
  | .cp a b c e => [0xe0000000 + a.toNat * 2048 + b.toNat * 64 + c.toNat * 4 + e.toNat]
  | .cpOffset a b c e x => [0xe2000000 + a.toNat * 2048 + b.toNat * 64 + c.toNat * 4 + e.toNat, x.toNat]
  | .cpExpect a b e x => [0xe2100000 + a.toNat * 2048 + b.toNat * 64 + e.toNat, x.toNat]
  | .copyPerform _ _ => []
  | .copyShort _ _ => []
  | .msSub h a x => [0xe6000000 + h.toNat * 65536 + a.toNat * 2048, x.toNat]
  | .msPull h a b => [0xe4100000 + h.toNat * 65536 + a.toNat * 2048 + b.toNat * 64]
  | .msPullDone h a b x => [0xe6100000 + h.toNat * 65536 + a.toNat * 2048 + b.toNat * 64, x.toNat]
  | .msStop h => [0xe4200000 + h.toNat * 65536]
  | .msePushSlot _ => []
  | .msePullSlot _ => []
  | .qClaim d a => [0xe8000000 + d.toNat * 2097152 + a.toNat * 65536]
  | .qPub a b => [0xe8000001 + a.toNat * 65536 + b.toNat * 2048]
  | .qWait a => [0xe8000002 + a.toNat * 65536]
  | .qNote a => [0xe8000003 + a.toNat * 65536]
  | .grLaunch d a b => [0xf0000000 + d.toNat * 2097152 + a.toNat * 65536 + b.toNat * 2048]
  | .fireBegin => [0xf0000001]
  | .fireEnd => [0xf0000002]
  | .modeReq a => [0xf0000003 + a.toNat * 65536]
  | .markInj a b => [0xf0000004 + a.toNat * 65536 + b.toNat * 2048]
  | .markWait a => [0xf0000005 + a.toNat * 65536]
  | .pageReq a => [0xf0000006 + a.toNat * 65536]
  | .pageDrop a => [0xf0000007 + a.toNat * 65536]
  | .rmonRd d a => [0xf0000008 + d.toNat * 2097152 + a.toNat * 65536]
  | .enRd d a => [0xf4000000 + d.toNat * 2097152 + a.toNat * 65536]
  | .enSub d a b => [0xf4000001 + d.toNat * 2097152 + a.toNat * 65536 + b.toNat * 2048]
  | .enSet a b => [0xf4000002 + a.toNat * 65536 + b.toNat * 2048]
  | .trap c => [0xf8000000 + c.toNat]
  | .tret => [0xf8010000]
  | .csrRd d r => [0xf8020000 + d.toNat * 2048 + r.toNat]
  | .csrWr a r => [0xf8030000 + a.toNat * 2048 + r.toNat]
  | .idle => [0xf8040000]
  | .timeRd d => [0xf8050000 + d.toNat * 2048]
  | .dbgBrk c => [0xf8100000 + c.toNat]
  | .trcMark a x => [0xf8110000 + a.toNat * 64 + x.toNat]
  | .trcFrz => [0xf8120000]
  | .ckptReq => [0xf8130000]
  | .iadd a b s n v => [0x1000000 + a.toNat * 32768 + b.toNat * 64 + s.toNat * 16 + n.toNat * 8 + v.toNat]
  | .isub a b s n v => [0x2000000 + a.toNat * 32768 + b.toNat * 64 + s.toNat * 16 + n.toNat * 8 + v.toNat]
  | .imul a b s n v => [0x3000000 + a.toNat * 32768 + b.toNat * 64 + s.toNat * 16 + n.toNat * 8 + v.toNat]
  | .imulh a b s n => [0x4000000 + a.toNat * 32768 + b.toNat * 64 + s.toNat * 16 + n.toNat * 8]
  | .iand a b s n => [0x5000000 + a.toNat * 32768 + b.toNat * 64 + s.toNat * 16 + n.toNat * 8]
  | .ior a b s n => [0x6000000 + a.toNat * 32768 + b.toNat * 64 + s.toNat * 16 + n.toNat * 8]
  | .ixor a b s n => [0x7000000 + a.toNat * 32768 + b.toNat * 64 + s.toNat * 16 + n.toNat * 8]
  | .ishl a b s n => [0x8000000 + a.toNat * 32768 + b.toNat * 64 + s.toNat * 16 + n.toNat * 8]
  | .ishr a b s n => [0x9000000 + a.toNat * 32768 + b.toNat * 64 + s.toNat * 16 + n.toNat * 8]
  | .isar a b s n => [0xa000000 + a.toNat * 32768 + b.toNat * 64 + s.toNat * 16 + n.toNat * 8]
  | .imin a b s n => [0xb000000 + a.toNat * 32768 + b.toNat * 64 + s.toNat * 16 + n.toNat * 8]
  | .imax a b s n => [0xc000000 + a.toNat * 32768 + b.toNat * 64 + s.toNat * 16 + n.toNat * 8]
  | .iminu a b s n => [0xd000000 + a.toNat * 32768 + b.toNat * 64 + s.toNat * 16 + n.toNat * 8]
  | .imaxu a b s n => [0xe000000 + a.toNat * 32768 + b.toNat * 64 + s.toNat * 16 + n.toNat * 8]
  | .iabs a b s n v => [0xf000000 + a.toNat * 32768 + b.toNat * 64 + s.toNat * 16 + n.toNat * 8 + v.toNat]
  | .icmp a b s n v => [0x10000000 + a.toNat * 32768 + b.toNat * 64 + s.toNat * 16 + n.toNat * 8 + v.toNat]
  | .fadd a b s n v => [0x20000000 + a.toNat * 32768 + b.toNat * 64 + s.toNat * 16 + n.toNat * 8 + v.toNat]
  | .fsub a b s n v => [0x21000000 + a.toNat * 32768 + b.toNat * 64 + s.toNat * 16 + n.toNat * 8 + v.toNat]
  | .fmul a b s n v => [0x22000000 + a.toNat * 32768 + b.toNat * 64 + s.toNat * 16 + n.toNat * 8 + v.toNat]
  | .ffma a b s n v => [0x23000000 + a.toNat * 32768 + b.toNat * 64 + s.toNat * 16 + n.toNat * 8 + v.toNat]
  | .fmin a b s n => [0x24000000 + a.toNat * 32768 + b.toNat * 64 + s.toNat * 16 + n.toNat * 8]
  | .fmax a b s n => [0x25000000 + a.toNat * 32768 + b.toNat * 64 + s.toNat * 16 + n.toNat * 8]
  | .fabs a b s n => [0x26000000 + a.toNat * 32768 + b.toNat * 64 + s.toNat * 16 + n.toNat * 8]
  | .fneg a b s n => [0x27000000 + a.toNat * 32768 + b.toNat * 64 + s.toNat * 16 + n.toNat * 8]
  | .fcmp a b s n v => [0x28000000 + a.toNat * 32768 + b.toNat * 64 + s.toNat * 16 + n.toNat * 8 + v.toNat]
  | .rndi a b s n v => [0x29000000 + a.toNat * 32768 + b.toNat * 64 + s.toNat * 16 + n.toNat * 8 + v.toNat]
  | .fxp a b s n => [0x2a000000 + a.toNat * 32768 + b.toNat * 64 + s.toNat * 16 + n.toNat * 8]
  | .expins a b s n => [0x2b000000 + a.toNat * 32768 + b.toNat * 64 + s.toNat * 16 + n.toNat * 8]
  | .expext a b s n => [0x2c000000 + a.toNat * 32768 + b.toNat * 64 + s.toNat * 16 + n.toNat * 8]
  | .frcp a b s n => [0x2d000000 + a.toNat * 32768 + b.toNat * 64 + s.toNat * 16 + n.toNat * 8]
  | .frsq a b s n => [0x2e000000 + a.toNat * 32768 + b.toNat * 64 + s.toNat * 16 + n.toNat * 8]
  | .badd2 a b s n v => [0x30000000 + a.toNat * 32768 + b.toNat * 64 + s.toNat * 16 + n.toNat * 8 + v.toNat]
  | .bsub2 a b s n v => [0x31000000 + a.toNat * 32768 + b.toNat * 64 + s.toNat * 16 + n.toNat * 8 + v.toNat]
  | .bmul2 a b s n v => [0x32000000 + a.toNat * 32768 + b.toNat * 64 + s.toNat * 16 + n.toNat * 8 + v.toNat]
  | .bfma2 a b s n v => [0x33000000 + a.toNat * 32768 + b.toNat * 64 + s.toNat * 16 + n.toNat * 8 + v.toNat]
  | .bmin2 a b s n => [0x34000000 + a.toNat * 32768 + b.toNat * 64 + s.toNat * 16 + n.toNat * 8]
  | .bmax2 a b s n => [0x35000000 + a.toNat * 32768 + b.toNat * 64 + s.toNat * 16 + n.toNat * 8]
  | .i2f a b s n v => [0x38000000 + a.toNat * 32768 + b.toNat * 64 + s.toNat * 16 + n.toNat * 8 + v.toNat]
  | .f2i a b s n v => [0x39000000 + a.toNat * 32768 + b.toNat * 64 + s.toNat * 16 + n.toNat * 8 + v.toNat]
  | .f2b a b s n v => [0x3a000000 + a.toNat * 32768 + b.toNat * 64 + s.toNat * 16 + n.toNat * 8 + v.toNat]
  | .b2f a b s n => [0x3b000000 + a.toNat * 32768 + b.toNat * 64 + s.toNat * 16 + n.toNat * 8]
  | .b2fh a b s n => [0x3c000000 + a.toNat * 32768 + b.toNat * 64 + s.toNat * 16 + n.toNat * 8]
  | .esel a b s n => [0x40000000 + a.toNat * 32768 + b.toNat * 64 + s.toNat * 16 + n.toNat * 8]
  | .steer a b s n => [0x41000000 + a.toNat * 32768 + b.toNat * 64 + s.toNat * 16 + n.toNat * 8]
  | .merge a b s n => [0x42000000 + a.toNat * 32768 + b.toNat * 64 + s.toNat * 16 + n.toNat * 8]
  | .mergeSecondEmit _ _ => []
  | .gate a b s n => [0x43000000 + a.toNat * 32768 + b.toNat * 64 + s.toNat * 16 + n.toNat * 8]
  | .dup a b s n => [0x44000000 + a.toNat * 32768 + b.toNat * 64 + s.toNat * 16 + n.toNat * 8]
  | .dupCopyEmit _ _ => []
  | .acc a b s n v => [0x45000000 + a.toNat * 32768 + b.toNat * 64 + s.toNat * 16 + n.toNat * 8 + v.toNat]
  | .tagset a b s n => [0x46000000 + a.toNat * 32768 + b.toNat * 64 + s.toNat * 16 + n.toNat * 8]
  | .pass a b s n => [0x47000000 + a.toNat * 32768 + b.toNat * 64 + s.toNat * 16 + n.toNat * 8]
  | .ends a b s n => [0x48000000 + a.toNat * 32768 + b.toNat * 64 + s.toNat * 16 + n.toNat * 8]
  | .cnt a b s n => [0x49000000 + a.toNat * 32768 + b.toNat * 64 + s.toNat * 16 + n.toNat * 8]
  | .agl i => [0x50ffffc0 + i.toNat]
  | .ags i => [0x51ffffc0 + i.toNat]
  | .agc i => [0x52ffffc0 + i.toNat]
  | .agAccess _ _ => []
  | .rin a b i => [0x54000000 + a.toNat * 32768 + b.toNat * 64 + i.toNat]
  | .rout i => [0x55ffffc0 + i.toNat]
  | .rep a b i => [0x56000000 + a.toNat * 32768 + b.toNat * 64 + i.toNat]
  | .outputPortWrite _ _ => []
  | .portHeldTokenWrite _ _ => []
  | .tokenArrival _ _ => []
  | .queueTurnRelease _ _ _ => []
  | .markerAlign _ _ => []
  | .rsuFire _ _ => []
  | .rsuScanEmit _ _ => []
  | .pagePlace _ _ => []
  | .pageEvict _ => []
  | .backEdgeMarkerTake _ _ _ _ => []
  | .forcedCut _ _ => []
  | .queueLaunch _ _ => []
  | .instanceEnd _ _ => []
  | .schedulerPreempt _ _ => []
  | .schedulerResume _ _ => []
  | .wake _ => []
  | .idleTimeout _ => []
  | .asyncTrapDelivery _ => []
  | .breakpointMatch _ => []
  | .recordBacklogWrite _ => []
  | .xdone _ _ => []
  | .instctlPreempt _ _ => []
  | .instctlResume _ _ => []
  | .instctlEnd _ _ => []
  | .tlbInvalidate _ _ => []
  | .qSync _ _ => []
  | .qSyncHalt _ _ => []
  | .ctxdataRead _ => []
  | .ctxdataWrite _ _ => []
  | .trcdataRead _ => []
  | .traceUnfreeze _ => []
  | .traceFreeze _ => []
  | .sample _ => []
  | .timeStep _ => []
  | .timeSlew _ => []
  | .registerWrite _ _ _ => []
  | .queueNotify _ _ => []
  | .queueNotifyIndexed _ _ => []
  | .hostPublication _ _ => []
  | .ingestArrival _ _ _ => []
  | .ingestDeadline _ _ => []
  | .hostApertureWrite _ _ _ => []
  | .hostApertureRead _ _ _ => []
  | .arcArrival _ _ _ => []
  | .arcAdvanceReturn _ _ _ => []
  | .linkBeatError _ => []
  | .linkDown _ => []
  | .linkReturn _ => []
  | .attachErr _ => []
  | .thermal _ => []
  | .meterFlush _ => []
  | .intervalEnd => []
  | .calibrationTrim => []
  | .checkpointTimer _ => []
  | .checkpointComplete _ => []
  | .checkpointImageWrite _ => []
  | .create _ _ _ _ => []
  | .destroy _ _ _ _ => []
  | .resize _ _ _ _ => []
  | .assign _ _ _ _ => []
  | .release _ _ _ _ => []
  | .partitionReset _ _ _ _ => []
  | .restore _ _ _ _ => []
  | .setpool _ _ _ _ => []
  | .arcs _ _ _ _ => []
  | .retire _ _ _ _ => []
  | .enset _ _ _ _ => []
  | .status => []
  | .logrd _ => []
  | .enrd _ _ => []
  | .wearrd _ => []
  | .attest _ => []
  | .pctl _ _ _ _ _ => []
  | .dump _ _ _ => []
  | .kekset _ _ _ => []
  | .reset _ _ => []
  | .fwload _ _ _ _ _ => []
  | .unlockNonce => []
  | .unlockToken _ => []
  | .provision _ _ => []
  | .standbyBoot => []
  | .mainPowerGood _ _ _ => []
  | .calibrationDone => []
  | .meminitDone => []
  | .attachTrainingDone _ => []
  | .ready => []
  | .arcSlotSend _ _ => []
  | .powerLoss => []

/-- The words of an instruction (R26). -/
def encode (i : Instr) : List Half := (encodeNat i).map (BitVec.ofNat 32)

/-- The first word of an instruction, which ILL and PRIV put into `TC_TVAL` (R29). -/
def firstWord (i : Instr) : Half := BitVec.ofNat 32 ((encodeNat i).headD 0)

/-- The bytes an instruction takes in memory: 4, or 8 with an extension word (R26). -/
def lengthBytes (i : Instr) : Nat := 4 * (encodeNat i).length

/-- The device ignores field b of `at.ld` (R130): the word with that field cleared. Every other word
stands as it is. -/
def ignoreLoadOperand (w : Nat) : Nat :=
  if w / 67108864 = 0x1B ∧ w / 128 % 16 = 10 then w - w / 2048 % 32 * 2048 else w

/-- A control instruction from its first word and, for an extended form, its extension word (R29). -/
def decodeControl (w x : Half) : Except DecodeError Instr :=
  match candidate w.toNat x with
  | none => .error .unassigned
  | some i =>
    if (encodeNat i).headD 0 ≠ ignoreLoadOperand w.toNat then .error .unusedField
    else if (encodeNat i).tailD [] ≠ [] ∧ (encodeNat i).tailD [] ≠ [x.toNat] then .error .outOfRange
    else if wellFormed i then .ok i else .error .outOfRange

/-- The first word is of an assigned extended form, so the next word belongs to it (R37). -/
def needsExtension (w : Half) : Bool :=
  match candidate w.toNat 0 with
  | some i => (encodeNat i).length = 2
  | none => false

/-- An element operation from its word (R43); the word 0 is `nop` and holds no operation. -/
def decodeElem (w : Half) : Except DecodeError Instr :=
  match candidateElem w.toNat with
  | none => .error .unassigned
  | some i =>
    if encodeNat i ≠ [w.toNat] then .error .unusedField
    else if wellFormed i then .ok i else .error .outOfRange

/-- Whether a table row's word is read as an element word. The device has two instruction streams with words of
their own, and a table word does not say its stream. A word is read as a control word where it is one; but a bare
element operation, all of its operand fields zero, is read so unless its opcode is also that of a control word with
zero operands (log 15). -/
def readAsElement (w : Nat) : Bool :=
  let element : Bool := match decodeElem (BitVec.ofNat 32 w) with
    | .ok _ => true
    | .error _ => false
  let control : Bool := match decodeControl (BitVec.ofNat 32 w) (BitVec.ofNat 32 (w / 2 ^ 32)) with
    | .ok _ => true
    | .error _ => false
  element && (!control || decide (w % 16777216 = 0 ∧ w / 16777216 % 4 ≠ 0))

/-- The instruction that the decoder reads from a table row's bits: the first word is bits [31:0] and an extension
word is bits [63:32] (log 15). -/
def decodeTableWord (_nbits w : Nat) : Option Instr :=
  if readAsElement w then
    match decodeElem (BitVec.ofNat 32 w) with
    | .ok i => some i
    | .error _ => none
  else
    match decodeControl (BitVec.ofNat 32 w) (BitVec.ofNat 32 (w / 2 ^ 32)) with
    | .ok i => some i
    | .error _ => none

end Sys2Proof
end

