-- ==== Sys2Proof/Machine/PageFormat.lean ====
section
/-! DEFINITION. Bytes and fields, and the layout of a configuration page (R40 to R50, R178). -/

namespace Sys2Proof.Machine

/-- The number whose little-endian bytes these are (R3). -/
def leNat : List Byte → Nat
  | [] => 0
  | b :: r => b.toNat + 256 * leNat r

/-- The `n` little-endian bytes of a number (R3). -/
def leBytes : Nat → Nat → List Byte
  | 0, _ => []
  | n + 1, v => BitVec.ofNat 8 v :: leBytes n (v / 256)

/-- `n` zero bytes. -/
def zeros (n : Nat) : List Byte := List.replicate n 0

/-- Bits `[lo + n - 1 : lo]` of a number. -/
def bits (v lo n : Nat) : Nat := v / 2 ^ lo % 2 ^ n

/-- Bits `[lo + n - 1 : lo]` of a 64-bit value. -/
def wbits (v : Word) (lo n : Nat) : Nat := v.toNat / 2 ^ lo % 2 ^ n

/-- The bit `n` of a number. -/
def bit (v n : Nat) : Bool := v / 2 ^ n % 2 = 1

/-- A number of `w` bits read in two's complement. -/
def signed (w v : Nat) : Int := if v % 2 ^ w < 2 ^ (w - 1) then (v % 2 ^ w : Nat) else (v % 2 ^ w : Nat) - (2 : Int) ^ w

/-- A word with the integer `v` modulo 2^64. -/
def wordInt (v : Int) : Word := BitVec.ofInt 64 v

/-- The little-endian field of `n` bytes at an offset of an image. -/
def field (image : List Byte) (off n : Nat) : Nat := leNat ((image.drop off).take n)

/-- Page header fields (R41, R42). -/
def pgIcount (im : List Byte) : Nat := bits (field im 0 4) 26 6
def pgKind (im : List Byte) : Nat := bits (field im 0 4) 24 2
def pgPorts (im : List Byte) : Nat := bits (field im 0 4) 18 6
def pgAgcount (im : List Byte) : Nat := bits (field im 0 4) 14 4
def pgInit (im : List Byte) : Bool := bit (field im 0 4) 8
def pgMon (im : List Byte) : Bool := bit (field im 0 4) 10
def pgRnd (im : List Byte) : Nat := bits (field im 4 4) 0 3
def pgNtok (im : List Byte) : Nat := bits (field im 4 4) 8 7
def pgRsuen (im : List Byte) : Nat := bits (field im 4 4) 16 8

/-- The element word of a slot, and a constant of a slot (R40). -/
def elemWord (im : List Byte) (slot : Nat) : Nat := field im (0x10 + 4 * slot) 4
def elemConst (im : List Byte) (slot j : Nat) : Half := BitVec.ofNat 32 (field im (0x110 + 16 * slot + 4 * j) 4)

/-- Word `w` of a port-table entry (R49). -/
def portWord (im : List Byte) (p w : Nat) : Nat := field im (0xB10 + 16 * p + 4 * w) 4
def portDir (im : List Byte) (p : Nat) : Nat := bits (portWord im p 0) 1 1
def portHandle (im : List Byte) (p : Nat) : Nat := bits (portWord im p 0) 2 4
def portKind (im : List Byte) (p : Nat) : Nat := bits (portWord im p 0) 6 2
def portTag (im : List Byte) (p : Nat) : Nat := bits (portWord im p 0) 8 5
def portTchk (im : List Byte) (p : Nat) : Bool := bit (portWord im p 0) 13
def portBack (im : List Byte) (p : Nat) : Bool := bit (portWord im p 0) 14
def portSlot (im : List Byte) (p : Nat) : Nat := bits (portWord im p 0) 16 6
def portTps (im : List Byte) (p : Nat) : Nat := bits (portWord im p 1) 0 16
def portWidth (im : List Byte) (p : Nat) : Nat := bits (portWord im p 1) 16 2

/-- The rate section: phases, and the declared count of a port in a phase (R50). -/
def pgPhases (im : List Byte) : Nat := bits (field im 0xC10 4) 0 4 + 1
def pgCount (im : List Byte) (p f : Nat) : Nat := field im (0xC20 + 32 * p + 2 * f) 2

/-- The configuration word of the RSU of a row (R178). -/
def rsuWord (im : List Byte) (row : Nat) : Nat := (elemConst im (8 * row + 7) 3).toNat

/-- A token's sideband as R47 stores it. -/
def sideband (t : Token) : Nat :=
  (if t.n then 256 else 0) + (if t.m then 128 else 0) + t.e % 4 * 32 + t.t % 32

/-- A token from its payload and sideband (R47). -/
def tokenOf (payload side : Nat) : Token :=
  { payload := BitVec.ofNat 32 payload, n := bit side 8, m := bit side 7, e := bits side 5 2, t := bits side 0 5 }

/-- A queue's key in the table of a page's queues: slot × 4 + queue. -/
def queueKey (slot q : Nat) : Nat := 4 * slot + q

/-- The entry of a number, or none where the table lists none. -/
def tabGet? {α : Type} : Tab α → Nat → Option α
  | [], _ => none
  | (k, v) :: r, n => if k = n then some v else tabGet? r n

/-- The entry of a number, with the given default. -/
def tabGet {α : Type} (d : α) (t : Tab α) (n : Nat) : α := (tabGet? t n).getD d

/-- The table with the entry of a number set, ascending. -/
def tabSet {α : Type} : Tab α → Nat → α → Tab α
  | [], n, v => [(n, v)]
  | (k, w) :: r, n, v =>
    if n < k then (n, v) :: (k, w) :: r else if n = k then (n, v) :: r else (k, w) :: tabSet r n v

/-- The table without a number. -/
def tabErase {α : Type} (t : Tab α) (n : Nat) : Tab α := t.filter fun e => e.1 ≠ n

/-- The initial tokens of a page, in entry order (R47): consumer field and token. -/
def initialTokens (im : List Byte) : List (Nat × Token) :=
  (List.range (pgNtok im)).map fun i =>
    let w1 := field im (0x510 + 8 * i + 4) 4
    (bits w1 16 9, tokenOf (field im (0x510 + 8 * i) 4) (bits w1 0 9))

/-- Whether a consumer field names this element queue or a producer of it (R44). -/
def namesQueue (c slot q : Nat) : Bool := c = 4 * slot + q

/-- The consumer fields of a slot: of its word, or of `k0` for `agl` (R43, R210). -/
def consumersOf (im : List Byte) (slot : Nat) : List Nat :=
  let w := elemWord im slot
  if w = 0 then []
  else if w / 16777216 = 0x50 then
    let k := (elemConst im slot 0).toNat
    [bits k 0 9, bits k 9 9]
  else [bits w 15 9, bits w 6 9]

/-- The producers of an element queue in ascending number, RSUs as 64 + row (R156). -/
def producersOf (im : List Byte) (slot q : Nat) : List Nat :=
  (List.range 64).filter (fun j => (consumersOf im j).any (namesQueue · slot q)) ++
    ((List.range 8).filter fun r => bit (pgRsuen im) r && namesQueue (bits (rsuWord im r) 8 9) slot q).map (64 + ·)

/-- The region state a page instance begins with (R183, R218). -/
def initialRegion (im : List Byte) : RegionState :=
  { queues := (initialTokens im).foldl (fun qs e =>
      let q := tabGet {} qs e.1
      tabSet qs e.1 { q with toks := q.toks ++ [e.2] }) []
    rnd := pgRnd im }

end Sys2Proof.Machine
end

