-- ==== Sys2Proof/Machine/HbmMap.lean ====
section
/-! DEFINITION. The physical map: where a byte of HBM is placed by the nine hash masks (R323), the tile apertures and
the host window (R116). -/

namespace Sys2Proof.Machine

/-- XOR of the bits of a 39-bit HBM address (R323). -/
def parity (v : Nat) : Nat := ((List.range 39).filter (bit v ·)).length % 2

/-- The pivot of a mask: its lowest set bit (R323). -/
def pivot (m : Nat) : Option Nat := (List.range 64).find? fun k => bit m k

/-- Whether a set of hash masks keeps the pivot rule (R323). -/
def masksOk (ms : List Nat) : Bool :=
  ms.all (fun m => (pivot m).isSome) &&
  (List.range ms.length).all fun j => (List.range ms.length).all fun k =>
    decide (j = k) || match pivot (ms.getD j 0) with | some p => !(bit (ms.getD k 0) p) | none => false

/-- The address without the pivot bits, the remaining bits closed up (R323). -/
def closedUp (pivots : List Nat) (pa : Nat) : Nat :=
  ((List.range 39).filter fun k => !(pivots.contains k)).reverse.foldl (fun v k => 2 * v + pa / 2 ^ k % 2) 0

/-- Where HBM holds a byte: stack, channel, pseudo-channel, and the address within it. -/
structure HbmPlace where
  stack : Nat
  channel : Nat
  pseudo : Nat
  addr : Nat
  deriving DecidableEq, Repr

/-- The place of a physical HBM address under nine masks (R323). -/
def hbmPlace (masks : Vector Word 9) (pa : Nat) : HbmPlace :=
  let p (n : Nat) : Nat := parity (Nat.land pa (masks.toArray.getD n 0).toNat)
  { stack := p 0 + 2 * p 1 + 4 * p 2
    channel := p 3 + 2 * p 4 + 4 * p 5 + 8 * p 6 + 16 * p 7
    pseudo := p 8
    addr := closedUp (masks.toList.filterMap fun m => pivot m.toNat) (pa % 2 ^ 39) }

/-- Physical base of a tile's aperture, which is its A-store; the W-store and C-store offsets (R116). -/
def apertureBase (tile : Nat) : Nat := 0x8000000000000 + 0x200000 * tile
def wStoreOff : Nat := 0x100000
def cStoreOff : Nat := 0x180000

/-- What a physical address names (R116). -/
inductive Region_ where
  /-- HBM. -/
  | hbm
  /-- A store of a tile, by its charge class ASTORE, CSTORE or WSTORE (R335). -/
  | store (tile cls : Nat)
  /-- The host window. -/
  | host
  /-- A reserved address. -/
  | reserved
  deriving DecidableEq, Repr

/-- The part of the physical map an address lies in (R116). -/
def regionOf (pa : Nat) : Region_ :=
  if pa < 0x8000000000 then .hbm
  else if 0x8000000000000 ≤ pa ∧ pa < 0x8000000000000 + 0x200000 * 192 then
    let off := (pa - 0x8000000000000) % 0x200000
    let tile := (pa - 0x8000000000000) / 0x200000
    if off < wStoreOff then .store tile 0x03 else if off < cStoreOff then .store tile 0x05
    else if off < 0x1C0000 then .store tile 0x04 else .reserved
  else if 0xC000000000000 ≤ pa ∧ pa < 2 ^ 52 then .host
  else .reserved

/-- How many 64-byte lines `n` bytes from an address touch (R335). -/
def linesOf (pa n : Nat) : Nat := if n = 0 then 0 else (pa + n - 1) / 64 - pa / 64 + 1

end Sys2Proof.Machine
end

