-- ==== Sys2Proof/Machine/Ops.lean ====
section
/-! DEFINITION. The named operations: memory and publications, charges, logs and records, translation
and its checks, registers, taking an exception and returning from one. -/

namespace Sys2Proof.Machine

/-- The outcome of a meaning. -/
abbrev Out := Host.Outcome State Fault Refusal

/-! ### Sparse tables -/

/-- What a canonical sparse list holds at a number: `d` where nothing is listed. -/
def sparseGet {α : Type} (d : α) : List (Nat × α) → Nat → α
  | [], _ => d
  | (k, v) :: r, n => if k = n then v else sparseGet d r n

/-- A canonical sparse list with one value set; writing `d` removes the entry. -/
def sparseSet {α : Type} [DecidableEq α] (d : α) : List (Nat × α) → Nat → α → List (Nat × α)
  | [], n, v => if v = d then [] else [(n, v)]
  | (k, w) :: r, n, v =>
    if n < k then (if v = d then (k, w) :: r else (n, v) :: (k, w) :: r)
    else if n = k then (if v = d then r else (n, v) :: r)
    else (k, w) :: sparseSet d r n v

/-- The canonical form: numbers strictly rising, and no entry equal to `d`. -/
def sparseWf {α : Type} [DecidableEq α] (d : α) : List (Nat × α) → Bool
  | [] => true
  | [(_, v)] => decide (v ≠ d)
  | (k, v) :: (k', v') :: r => decide (k < k') && decide (v ≠ d) && sparseWf d ((k', v') :: r)

/-- Memory's canonical form. -/
def Memory.wf (m : Memory) : Bool := sparseWf (0 : Byte) m

/-- The byte at a physical address at the end of the publication order; an unlisted byte is 0 (log 1). -/
def State.readByte (s : State) (pa : Nat) : Byte := sparseGet 0 s.mem pa

/-- Memory with the bytes written in order. -/
def Memory.write (m : Memory) : List (Nat × Byte) → Memory
  | [] => m
  | (a, b) :: r => Memory.write (sparseSet 0 m a b) r

/-- The descriptor of the 64-byte block at a physical address (R61). -/
def State.descAt (s : State) (pa : Nat) : BitVec 16 := sparseGet 0 s.descs (pa / 64)

/-- `n` bytes at a physical address, at the end of the publication order (R123). -/
def State.readBytes (s : State) (pa n : Nat) : List Byte := (List.range n).map fun i => s.readByte (pa + i)

/-- The number in `n` bytes at a physical address (R3). -/
def State.readNat (s : State) (pa n : Nat) : Nat := leNat (s.readBytes pa n)

/-- A byte as the publication before position `snap` left it: the newest publications are undone one
by one (R120, log 5). -/
def undo : List (Option (Nat × Nat × Nat) × List Host.Cell × List (Nat × BitVec 16)) → Nat → Nat → Byte → Byte
  | _, 0, _, b => b
  | [], _ + 1, _, b => b
  | h :: r, n + 1, pa, b => undo r n pa (((h.2.1.find? fun c => c.1 = pa).map Prod.snd).getD b)

/-- The byte at a snapshot point (R120). -/
def State.readAt (s : State) (snap pa : Nat) : Byte := undo s.hist (s.pubCount - snap) pa (s.readByte pa)

/-! ### Tiles, threads, partitions -/

def State.thread? (s : State) (n : Nat) : Option Thread := tabGet? s.threads n
def State.setThread (s : State) (t : Thread) : State := { s with threads := tabSet s.threads t.num t }
def State.tile (s : State) (n : Nat) : Tile := tabGet {} s.tiles n
def State.setTile (s : State) (n : Nat) (t : Tile) : State := { s with tiles := tabSet s.tiles n t }
def State.part (s : State) (n : Nat) : Partition := tabGet {} s.parts n
def State.setPart (s : State) (n : Nat) (p : Partition) : State := { s with parts := tabSet s.parts n p }
def State.page? (s : State) (n : Nat) : Option Page := tabGet? s.pages n
def State.setPage (s : State) (p : Page) : State := { s with pages := tabSet s.pages p.id p }
def State.account (s : State) (n : Nat) : Account := tabGet {} s.accounts n
def State.setAccount (s : State) (n : Nat) (a : Account) : State := { s with accounts := tabSet s.accounts n a }
def State.func (s : State) (n : Nat) : Func := tabGet {} s.funcs n

/-- The instance of a number in a partition. -/
def State.inst? (s : State) (part num : Nat) : Option Inst := s.insts.find? fun i => i.part = part ∧ i.num = num

/-- The state with one instance replaced. -/
def State.setInst (s : State) (i : Inst) : State :=
  { s with insts := s.insts.map fun j => if j.part = i.part ∧ j.num = i.num then i else j }

/-- The virtual tile of a thread number, and its index there (R18). -/
def Thread.tile (t : Thread) : Nat := t.num / 4
def Thread.index (t : Thread) : Nat := t.num % 4

/-- The die of a tile (R9). -/
def dieOf (tile : Nat) : Nat := if tile < 96 then 0 else 1

/-- `s0` reads zero (R83, R53). -/
def Thread.reg (t : Thread) (r : Nat) : Word := if r = 0 then 0 else t.regs.toArray.getD r 0

/-- A scalar written; a write of `s0` is discarded (R91). -/
def Thread.setReg (t : Thread) (r : Nat) (v : Word) : Thread :=
  if r = 0 then t else { t with regs := t.regs.setIfInBounds r v }

/-- A predicate; `p0` is always true (R53). -/
def Thread.pred (t : Thread) (p : Nat) : Bool := p = 0 || t.preds.getLsbD p

/-- A predicate written; a write of `p0` is discarded (R91). -/
def Thread.setPred (t : Thread) (p : Nat) (v : Bool) : Thread :=
  if p = 0 then t
  else { t with preds := if v then t.preds ||| BitVec.ofNat 8 (2 ^ p) else t.preds &&& ~~~(BitVec.ofNat 8 (2 ^ p)) }

def Thread.handle (t : Thread) (h : Nat) : Handle := t.handles.toArray.getD h {}
def Thread.setHandle (t : Thread) (h : Nat) (v : Handle) : Thread := { t with handles := t.handles.setIfInBounds h v }

/-- The fields of `TC_SW` (R356). -/
def Thread.level (t : Thread) : Nat := wbits t.sw 0 2
def Thread.hnd (t : Thread) : Bool := wbits t.sw 2 1 = 1
def Thread.prio (t : Thread) : Nat := wbits t.sw 3 2
def Thread.acct (t : Thread) : Nat := wbits t.sw 5 7

/-- A status word from its fields (R356). -/
def swOf (lvl hnd prio acct : Nat) : Word := word (lvl + 4 * hnd + 8 * prio + 32 * acct)

/-- The account that a thread's work carries: the device account at level M (R22, R353). -/
def Thread.bill (t : Thread) : Nat := if t.level = 2 then 64 else t.acct

/-- The two-level name of a thread's work at a program counter and sequence number (R24). -/
def Thread.nameAt (t : Thread) (pc : Word) (seq : Half) : Name :=
  { thread := t.num, part := t.part, inst := t.inst, ordinal := t.ordinal, actor := t.actor
    acct := t.acct, pc, seq }

/-- An engine command (R23): majors 0x28 to 0x37, `cp`, `cp.expect`, `ms.sub`, `ms.pull`, `ms.stop`. -/
def isEngine (i : Instr) : Bool :=
  let m := (firstWord i).toNat / 67108864
  decide (0x28 ≤ m ∧ m ≤ 0x39 ∧ encodeNat i ≠ [])

/-- The sequence number in an instruction's name before it has issued (R23). -/
def seqOf (i : Instr) (t : Thread) : Half := if isEngine i then t.seq + 1 else t.seq

/-! ### Charges (R30, R334) -/

/-- The island of a virtual tile, by its physical position (R417). -/
def State.islandOf (s : State) (tile : Nat) : Nat :=
  if tile < 96 then s.dev.good0.getD tile tile else 104 + s.dev.good1.getD (tile - 96) (tile - 96)

/-- Whole nanojoules of a fine residue move into the dynamic energy of an account, wrapping counters
flagged, balance and reserve lowered (R336, R342, R343). -/
def Account.addEnergy (a : Account) (n : Nat) (sharedPart : Bool) : Account :=
  let total := a.acct.toNat + n
  let shr := a.shared.toNat + n
  let bal := a.quota.toNat
  let limited := a.quota ≠ allOnes
  let bal' := bal - n
  let res' := if limited then a.reserve.toNat - (n - bal) else a.reserve.toNat
  let st := a.status ||| (if total ≥ 2 ^ 64 then 8 else 0) |||
    (if sharedPart ∧ shr ≥ 2 ^ 64 then 16 else 0) |||
    (if limited ∧ bal ≥ a.low.toNat ∧ bal' < a.low.toNat then 2 else 0)
  { a with
    acct := word total
    shared := if sharedPart then word shr else a.shared
    quota := if limited then word bal' else a.quota
    reserve := word res'
    status := st
    lowDue := a.lowDue || (limited && decide (bal ≥ a.low.toNat ∧ bal' < a.low.toNat))
    exhDue := a.exhDue || (limited && decide (bal > 0 ∧ bal' = 0))
    dynNow := if sharedPart then a.dynNow else a.dynNow + n }

/-- An accumulator's content goes to the account's fine residue, and its whole nanojoules on (R336). -/
def Account.flush (a : Account) (content : Nat) : Account :=
  let fine := a.fine + content
  { a.addEnergy (fine / 256000) false with fine := fine % 256000 }

/-- The largest coefficient (R337). -/
def coefMax : Nat := 2 ^ 32 - 1

/-- A coefficient as an island's trims have scaled it (R338). -/
def scaled (trims : List (Nat × Nat)) (cls island point c : Nat) : Nat :=
  trims.foldl (fun c e => min coefMax ((c * e.1 + if Config.coefUp e.2 cls island point then 999999 else 0) / 1000000)) c

/-- The coefficient in force (R337, R338). -/
def Device.coef (d : Device) (cls island point : Nat) : Nat :=
  scaled (tabGet [] d.trims island) cls island point (Config.coef d.calBase cls island point).toNat

/-- Charge(class, n) at the meter of an island, to an account (R30, R334): the accumulator is first in
the meter's order of use; a ninth account takes over the least recently used one, which is flushed. -/
def State.charge (s : State) (island acct cls n : Nat) : State :=
  let amount := n * s.dev.coef cls island (tabGet 7 s.dev.points island)
  let accs := tabGet [] s.meters island
  let old := ((accs.find? fun e => e.1 = acct).map Prod.snd).getD 0
  let rest := accs.filter fun e => e.1 ≠ acct
  let kept := rest.take 7
  let spilled := rest.drop 7
  let s := spilled.foldl (fun s e => s.setAccount e.1 ((s.account e.1).flush e.2)) s
  { s with meters := tabSet s.meters island ((acct, old + amount) :: kept) }

/-- A charge at a thread's tile to its account. -/
def State.chargeThread (s : State) (t : Thread) (cls n : Nat) : State := s.charge (s.islandOf t.tile) t.bill cls n

/-- The path classes of an access (R151): each is charged as often as the path causes it (log 7). -/
def State.chargePath (s : State) (island acct : Nat) (classes : List Nat) : State :=
  classes.foldl (fun s c => { s.charge island acct c (Config.pathUnits s.fresh c) with fresh := s.fresh + 1 }) s

/-! ### Region phase counters (R396) -/

/-- A phase count added to a region counter: it wraps at 2^63 and then sets OVF (R396). -/
def rgAdd (v : Word) (n : Nat) : Word :=
  let c := wbits v 0 63 + n
  word (c % 2 ^ 63) ||| (if c ≥ 2 ^ 63 then word (2 ^ 63) else v &&& word (2 ^ 63))

/-- Cycles of a region's four classes, and of its residence as a whole, counted (R396). -/
def Tile.addPhase (tl : Tile) (load fill steady drain total : Nat) : Tile :=
  { tl with rgAcc := Vector.ofFn fun k => rgAdd (tl.rgAcc.toArray.getD k.val 0) ([load, fill, steady, drain, total].getD k.val 0) }

/-! ### Order log, trace -/

/-- A record of the partition's order log (R401). -/
def State.logEvent (s : State) (part : Nat) (r : LogRec) : State :=
  let p := s.part part
  s.setPart part { p with log := p.log ++ [r] }

/-- A log record under a thread's name. -/
def State.logThread (s : State) (t : Thread) (seq : Half) (typ a : Nat) (b : Word) : State :=
  s.logEvent t.part { typ, ordinal := t.ordinal, inst := t.inst, pc := t.pc, seq, a, b }

/-- The next record of a log under replay, if it is this thread's of this type (R403). -/
def State.replayed? (s : State) (part : Nat) : Option LogRec := (s.part part).replay.head?

/-- One record more in the tile's trace buffer, at WPTR (R386, R387); with WRAP = 0 the record that fills the buffer
freezes it (cause 5). -/
def Tile.traceAppend (tl : Tile) (r : TraceRec) : Tile :=
  if tl.trcFrozen then tl
  else
    let t1 := { tl with
      trace := if tl.trcWptr < tl.trace.length then tl.trace.set tl.trcWptr r else tl.trace ++ [r]
      trcWptr := (tl.trcWptr + 1) % 2048 }
    if t1.trcWptr = 0 && !(bit tl.trcCtl.toNat 1) then { t1 with trcFrozen := true, trcCause := 5, trcPost := none } else t1

/-- A freeze that is due: POST further records have been written (R389), or `trc.frz` has issued (R394). -/
def Tile.freezeDue (tl : Tile) : Bool := tl.trcPost.any fun c => decide (c.2 = 0)

/-- The FREEZE record and the freeze itself (R386, R389). -/
def Tile.traceFreeze (tl : Tile) (time : Nat) : Tile :=
  match tl.trcPost with
  | none => tl
  | some (c, _) =>
    if tl.trcFrozen then tl
    else { tl.traceAppend ⟨word (10 + c * 256 + time % 2 ^ 48 * 65536), 0, 0, word tl.trcDrop⟩ with
      trcFrozen := true, trcCause := c, trcPost := none }

/-- A record of an enabled kind: none once a freeze is due; each counts down POST where a trigger has fired (R389). One
that finds two records written in its cycle is dropped and counted (R386): `crowded` says that the two last ones, written at
the same instant, are of its cycle (log 112). -/
def Tile.traceRecord (tl : Tile) (crowded : Bool) (r : TraceRec) : Tile :=
  if tl.freezeDue then tl
  else if tl.trcFrozen = false ∧ tl.trcRecent ≥ 2 ∧ crowded then
    { tl with trcDrop := (tl.trcDrop + 1) % 65536, trcDovf := tl.trcDovf || decide (tl.trcDrop + 1 ≥ 65536) }
  else let t1 := tl.traceAppend r; { t1 with trcRecent := t1.trcRecent + 1, trcPost := t1.trcPost.map fun c => (c.1, c.2 - 1) }

/-- A trigger's test of an event (R389). -/
def triggerHit (trig : Word) (typ : Nat) (v : Word) : Bool :=
  bit trig.toNat 0 && decide (wbits trig 1 2 = typ) &&
    (match typ with
     | 0 => decide (wbits trig 8 8 = wbits v 0 8)
     | 1 => decide (wbits trig 8 56 = wbits v 0 56)
     | 2 => decide (wbits trig 8 56 / 64 = wbits v 0 56 / 64)
     | _ => decide (wbits trig 8 6 = wbits v 0 6))

/-- An event of a thread reaches its tile's trace unit: the record is written where its kind and
thread are enabled, and the lowest matching trigger starts the count of POST (R386, R389). -/
def State.trace (s : State) (t : Thread) (kind sub : Nat) (pc : Word) (seq : Half) (data : Word)
    (trigs : List (Nat × Word)) : State :=
  let tl := s.tile t.tile
  let ctl := tl.trcCtl.toNat
  if !(bit ctl 0) || tl.trcFrozen || tl.freezeDue || !(bit ctl (12 + t.index)) then s
  else
    let rec0 : TraceRec :=
      ⟨word (kind + t.index * 16 + sub % 256 * 256 + s.dev.time % 2 ^ 48 * 65536), pc,
       word (seq.toNat + t.ordinal % 65536 * 2 ^ 32), data⟩
    let tl1 := if bit ctl (1 + kind) then tl.traceRecord (Config.crowded s.steps tl.trcRecent) rec0 else tl
    let tl2 :=
      if tl.trcPost.isSome || tl1.trcFrozen then tl1
      else match (List.range 4).find? (fun k => trigs.any fun e => triggerHit (tl.trig.toArray.getD k 0) e.1 e.2) with
        | none => tl1
        | some k => { tl1 with trcPost := some (k, bits ctl 16 11) }
    s.setTile t.tile tl2

/-! ### Publications (R119) -/

/-- A wait form's test of the value a word takes (R137). -/
def waitHolds (s : State) (t : Thread) (w : Wait) : Bool :=
  match w.instr with
  | .waitEq d _ _ z _ =>
    let n := if z.toNat = 0 then 4 else 8
    decide (s.readNat w.pa n = (t.reg d.toNat).toNat % 256 ^ n)
  | .waitNe d _ _ z _ =>
    let n := if z.toNat = 0 then 4 else 8
    decide (s.readNat w.pa n ≠ (t.reg d.toNat).toNat % 256 ^ n)
  | _ => false

/-- After a publication, each thread that waits on a word and whose condition holds now has seen it
hold (R137: every value the word takes is tested). -/
def State.notice (s : State) : State :=
  { s with threads := s.threads.map fun e =>
      match e.2.wait with
      | some w => if waitHolds s e.2 w then (e.1, { e.2 with wait := some { w with sat := true } }) else e
      | none => e }

/-- Descriptors written with whole blocks (R62): block number and descriptor. -/
def writeDescs (ds : List (Nat × BitVec 16)) : List (Nat × BitVec 16) → List (Nat × BitVec 16)
  | [] => ds
  | (b, d) :: r => writeDescs (sparseSet 0 ds b d) r

/-- The blocks that still hold an uncorrectable error once some bytes are written: a block all of whose bytes are
written is good again (R149, log 18). -/
def stillBad (bad : List Nat) (cells : List (Nat × Byte)) : List Nat :=
  bad.filter fun b => !((List.range 64).all fun k => cells.any fun c => decide (c.1 = 64 * b + k))

/-- One publication: the bytes enter memory at the end of the publication order, what they overwrite
is kept with its agent for the snapshots before it (R119, R120, R399, log 5). Nothing written is no publication. -/
def State.publish (s : State) (cells : List (Nat × Byte)) (blocks : List (Nat × BitVec 16) := []) : State :=
  if cells = [] ∧ blocks = [] then s
  else
    let s1 := { s with
      hist := (s.pubBy, cells.map (fun (c : Nat × Byte) => (c.1, s.readByte c.1)),
        blocks.map fun (b : Nat × BitVec 16) => (b.1, sparseGet 0 s.descs b.1)) :: s.hist
      mem := s.mem.write cells
      descs := writeDescs s.descs blocks
      badBlocks := stillBad s.badBlocks cells
      pubCount := s.pubCount + 1 }
    s1.notice

/-- The cells of consecutive bytes from an address. -/
def cellsAt (pa : Nat) (bs : List Byte) : List (Nat × Byte) := (List.range bs.length).zipWith (fun i b => (pa + i, b)) bs

/-- The end of the publication order becomes the snapshot point (R121). -/
def Thread.acquire (t : Thread) (s : State) : Thread := { t with snap := s.pubCount }

/-- A phase start: the fetch snapshot moves with the snapshot point (R90, R121, log 8). -/
def Thread.phaseStart (t : Thread) (s : State) : Thread := { t with snap := s.pubCount, fetchSnap := s.pubCount }

/-! ### Charges of accesses, translation (R115, R116, R140 to R143, R151) -/

/-- Kind of access (R363's codes). -/
inductive Access where
  | read | write | fetch | atomic
  deriving DecidableEq, Repr

def Access.code : Access → Nat
  | .read => 0 | .write => 1 | .fetch => 2 | .atomic => 3

def Access.writes : Access → Bool
  | .write | .atomic => true
  | _ => false

/-- The charges of moving `n` bytes between an agent on a die and their place in the physical map (R151, R335): the
store, memory-side cache or attach once per 64-byte line; the classes that depend on the path, the state of a cache
or the number of flits as often as they occur (log 7). `own` is the tile the agent belongs to, if it belongs to one;
`cached`: a line of the tile's data cache is filled or written back, if the access causes it. -/
def State.chargeFrom (s : State) (island acct die : Nat) (own : Option Nat) (pa n : Nat) (cached : Bool) : State :=
  match regionOf pa with
  | .hbm =>
    let far := decide ((hbmPlace s.dev.hash pa).stack / 4 ≠ die)
    if cached then s.chargePath island acct ([0x07, 0x0A, 0x0C, 0x0D] ++ if far then [0x0B] else [])
    else (s.charge island acct 0x0C (linesOf pa n)).chargePath island acct ([0x0A, 0x0D] ++ if far then [0x0B] else [])
  | .store owner cls =>
    let s1 := s.charge island acct cls (linesOf pa n)
    if own = some owner then s1 else s1.chargePath island acct (0x0A :: if dieOf owner ≠ die then [0x0B] else [])
  | .host => (s.charge island acct 0x0E (linesOf pa n)).chargePath island acct [0x0A, 0x0B]
  | .reserved => s

/-- The same for an agent of a tile. -/
def State.chargeMove (s : State) (island acct tile pa n : Nat) (cached : Bool) : State :=
  s.chargeFrom island acct (dieOf tile) (some tile) pa n cached

/-- The charges of writing some bytes from a tile where they lie, each line once (R151). -/
def State.chargeCells (s : State) (island acct tile : Nat) (cells : List (Nat × Byte)) : State :=
  ((cells.map fun c => c.1 / 64).eraseDups).foldl (fun s l => s.chargeMove island acct tile (64 * l) 64 false) s

/-- The lines of some buffered bytes with the accounts that made them, each once. -/
def bufLines (buf : List BufByte) : List (Nat × Nat) := (buf.map fun b => (b.acct, b.pa / 64)).eraseDups

/-- The charges of publishing buffered stores, to the accounts that made them (R151): a line of HBM is written back from
the data cache, a line of host memory crosses the attach; a tile store was charged when its access was. -/
def State.chargeBuffered (s : State) (t : Thread) (buf : List BufByte) : State :=
  (bufLines buf).foldl (fun s e =>
    match regionOf (64 * e.2) with
    | .hbm | .host => s.chargeMove (s.islandOf t.tile) e.1 t.tile (64 * e.2) 64 true
    | .store owner _ => if owner = t.tile then s else s.chargePath (s.islandOf t.tile) e.1 [0x0A]
    | .reserved => s) s

/-- Some of a thread's buffered stores, in program order, as bytes to publish (R122). -/
def bufCells (buf : List BufByte) : List (Nat × Byte) := buf.reverse.map fun b => (b.pa, b.byte)

/-- All of a thread's buffered stores become one publication (R122), charged as they are made (R151). -/
def State.publishAll (s : State) (t : Thread) : State × Thread :=
  let s1 := if t.buf = [] then s else (s.chargeBuffered t t.buf).publish (bufCells t.buf)
  (s1, { t with buf := [] })

/-- What a failed access gives: a missing page (R146), or a cause with its value. -/
inductive Miss where
  | absent (va : Nat)
  | cause (c : Nat) (v : Nat)
  deriving DecidableEq, Repr

/-- Whether a 64-byte block holds an uncorrectable error (R149, log 18). -/
def State.bad (s : State) (pa n : Nat) : Bool := s.badBlocks.any fun b => decide (pa / 64 ≤ b ∧ b ≤ (pa + n - 1) / 64)

/-! ### Error records (R378, R379) -/

/-- A record joins the partition's backlog under the next identifier; it answers that identifier (R362, R363). -/
def State.queueRecord (s : State) (part : Nat) (r : Record) : State × Nat :=
  let p := s.part part
  let id := p.recNext
  let next := if (id + 1) % 2 ^ 32 = 0 then 1 else (id + 1) % 2 ^ 32
  (s.setPart part { p with recNext := next, backlog := p.backlog ++ [{ r with id, time := s.dev.time }] }, id)

/-- A record goes to the device error log (R379), under the identifier it has. When the log is full the oldest record
is overwritten and counted; ERRHEAD is what its reader writes. -/
def State.errorLog (s : State) (r : Record) : State :=
  let d := s.dev
  { s with dev := { d with
      errLog := (d.errLog ++ [{ r with time := d.time }]).drop (d.errLog.length + 1 - 256)
      errTail := d.errTail + 1
      errLost := if d.errTail - d.errHead ≥ 256 then d.errLost + 1 else d.errLost } }

/-- The next identifier of the device error log's own records, which belong to no partition (R363, log 96). -/
def State.errorId (s : State) : State × Nat :=
  ({ s with dev := { s.dev with errNext := if (s.dev.errNext + 1) % 2 ^ 32 = 0 then 1 else (s.dev.errNext + 1) % 2 ^ 32 } },
   s.dev.errNext)

/-- The partition that owns an address of HBM or of a tile store, if any (R378). -/
def State.ownerOf (s : State) (pa : Nat) : Option Nat :=
  if pa < 0x8000000000 then (s.parts.find? fun e => e.2.exists_ && e.2.granules.contains (pa / 2 ^ 30)).map Prod.fst
  else (s.tile ((pa - 0x8000000000000) / 0x200000)).owner

/-- An error record: KIND 3 in the owning partition's backlog, and in the device error log under one identifier
(R378, R379). -/
def State.errorQueued (s : State) (part : Option Nat) (r : Record) : State :=
  let (s1, id) := match part with | some p => s.queueRecord p r | none => s.errorId
  s1.errorLog { r with id }

/-- An access has found an uncorrectable error: MEM_UE with the physical address, for the owner of the memory (R149,
R378). -/
def State.memUe (s : State) (pa : Nat) (access : Nat) : State :=
  s.errorQueued (s.ownerOf pa) { cause := 0x90, kind := 3, access, value := word pa }

/-! ### Translation (R140 to R143) -/

/-- A leaf's page size in bits by level (R140). -/
def pageBits (level : Nat) : Nat := 16 + 10 * level

/-- The checks of one entry (R141, R142): `none` goes on to the next table. -/
def entryCheck (pte level : Nat) : Except Bool (Option Unit) :=
  if !(bit pte 0) then .error false
  else
    let leaf := bit pte 1
    let addr := bits pte 13 39
    let badLeaf := leaf && (decide (level = 3) || decide (bits pte 0 52 / 8192 * 8192 % 2 ^ pageBits level ≠ 0) ||
      (bit pte 6 && decide (addr * 8192 ≥ 0x8000000000)))
    let badTable := !leaf && (decide (level = 0) || decide (bits pte 2 6 ≠ 0))
    if decide (bits pte 8 5 ≠ 0) || decide (pte / 2 ^ 52 ≠ 0) || badLeaf || badTable then .error true
    else if leaf then .ok (some ()) else .ok none

/-- Why a walk ends without a leaf: a page not present, a reserved bit, an uncorrectable error in an entry's block. -/
inductive WalkFault where
  | absent
  | reserved
  | ue (pa : Nat)
  deriving DecidableEq, Repr

/-- A walk from a table at a level downward (R142): the leaf and its level. -/
def walkFrom (s : State) (va : Nat) : Nat → Nat → Except WalkFault (Nat × Nat)
  | table, lvl =>
    let at_ := table + 8 * bits va (pageBits lvl) 10
    if s.bad at_ 8 then .error (.ue at_)
    else
      let e := s.readNat at_ 8
      match entryCheck e lvl with
      | .error reserved => .error (if reserved then .reserved else .absent)
      | .ok (some _) => .ok (e, lvl)
      | .ok none =>
        match lvl with
        | 0 => .error .reserved
        | l + 1 => walkFrom s va (bits e 13 39 * 8192) l
termination_by structural _ lvl => lvl

/-- The table walk of a partition (R140, R142). -/
def State.walk (s : State) (part va : Nat) : Except WalkFault (Nat × Nat) :=
  walkFrom s va (wbits (s.part part).root 13 39 * 8192) 3

/-- How many entries a walk from a table at a level reads (R142, R335). -/
def walkReads (s : State) (va : Nat) : Nat → Nat → Nat
  | table, lvl =>
    let e := s.readNat (table + 8 * bits va (pageBits lvl) 10) 8
    match entryCheck e lvl, lvl with
    | .ok none, l + 1 => walkReads s va (bits e 13 39 * 8192) l + 1
    | _, _ => 1
termination_by structural _ lvl => lvl

/-- The presented tiles of a die in virtual order, each with one TLB slice (R143). -/
def State.slices (s : State) (die : Nat) : List Nat :=
  ((List.range 96).map (96 * die + ·)).filter fun n => (s.tile n).present && !(s.tile n).absent

/-- Slice(VA) among `n` slices (R143). -/
def sliceIndex (va n : Nat) : Nat :=
  let f := bits va 26 30
  Nat.xor (Nat.xor (bits f 0 10) (bits f 10 10)) (bits f 20 10) % n

/-- The tile whose slice serves an address for an agent on a die (R143). -/
def State.sliceOf (s : State) (die va : Nat) : Nat :=
  let ts := s.slices die
  ts.getD (sliceIndex va ts.length) (96 * die)

/-- The base of what one entry of a slice maps: 64 KiB, or 64 MiB of a larger page (R143). -/
def entryBase (level va : Nat) : Nat := if level = 0 then va / 2 ^ 16 * 2 ^ 16 else va / 2 ^ 26 * 2 ^ 26

/-- A cached translation of an address in its slice (R143). -/
def State.tlbFind (s : State) (die part va : Nat) : Option TlbEntry :=
  let k := s.sliceOf die va
  s.tlb.find? fun e => e.slice = k ∧ e.part = part ∧ e.va = entryBase e.level va

/-- A slice takes an entry; a full one gives up another first (R10, R143, log 9). -/
def State.tlbInsert (s : State) (e : TlbEntry) : State :=
  let mine := s.tlb.filter fun x => decide (x.slice = e.slice)
  let kept := if mine.length < 1024 then s.tlb
    else match mine[Config.victim s.steps e.va % mine.length]? with
      | some v => s.tlb.erase v
      | none => s.tlb
  { s with tlb := e :: kept }

/-- Looks an address up in its slice of a die, which walks on a miss and keeps what the walk found (R143). -/
def State.lookup (s : State) (die part va : Nat) : State × Except WalkFault (Nat × Nat) :=
  match s.tlbFind die part va with
  | some e => (s, .ok (e.pte.toNat, e.level))
  | none =>
    match s.walk part va with
    | .error b => (s, .error b)
    | .ok (pte, lvl) =>
      (s.tlbInsert { slice := s.sliceOf die va, part, va := entryBase lvl va, level := lvl, pte := word pte }, .ok (pte, lvl))

/-- The charges of a translation (R151, R335): one slice lookup, and on a miss each entry that the walk reads, with the
path of those reads (log 7). -/
def State.chargeLookup (s : State) (island acct die part va : Nat) : State :=
  let s1 := s.charge island acct 0x08 1
  if (s.tlbFind die part va).isSome then s1
  else (s1.charge island acct 0x09 (walkReads s va (wbits (s.part part).root 13 39 * 8192) 3)).chargePath island acct
    [0x0A, 0x0B, 0x0C, 0x0D]

/-- The physical base of the descriptor array of a granule's described pages: 2 bytes for each of its blocks (R61, log 97). -/
def arrayBase (granule : Nat) : Nat := granule * 2 ^ 30 + Config.descArray granule % 32 * 2 ^ 25

/-- Whether an HBM address lies in a descriptor array of a partition (R61). -/
def State.inArray (s : State) (part pa : Nat) : Bool :=
  s.arrays.any fun g => decide (g.1 = part ∧ arrayBase g.2 ≤ pa ∧ pa < arrayBase g.2 + 2 ^ 25)

/-- An access through an entry of a described page: firmware has reserved the descriptor array of its granule (R61,
log 97). -/
def State.reserveArray (s : State) (part pte pa : Nat) : State :=
  if bit pte 6 && decide (pa < 0x8000000000) && (s.part part).granules.contains (pa / 2 ^ 30) &&
      !(s.arrays.contains (part, pa / 2 ^ 30)) then
    { s with arrays := (part, pa / 2 ^ 30) :: s.arrays }
  else s

/-- The physical checks of R116 and R370. `engine`: the copy engine, the MSEs and the macro loader
reach W-store apertures without limit. -/
def State.physOk (s : State) (part level : Nat) (engine : Bool) (acc : Access) (pa : Nat) : Bool :=
  if pa < 0x8000000000 then (s.part part).granules.contains (pa / 2 ^ 30) && !(s.inArray part pa)
  else if 0x8000000000000 ≤ pa ∧ pa < 0x8000000000000 + 0x200000 * 192 then
    let tile := (pa - 0x8000000000000) / 0x200000
    let off := (pa - 0x8000000000000) % 0x200000
    (s.part part).tiles.contains tile && decide (off < 0x1C0000) &&
      (engine || !(decide (wStoreOff ≤ off ∧ off < cStoreOff)) || (!acc.writes && decide (level ≠ 0)))
  else decide (0xC000000000000 ≤ pa ∧ pa < 2 ^ 52)

/-- Translates a global address and checks the access (R127 items 2 to 4, R141, R142). An uncorrectable error that a
read or the walk finds is recorded (R149). -/
def State.translate (s : State) (die part level : Nat) (engine : Bool) (acc : Access) (va n : Nat) :
    State × Except Miss Nat :=
  if va / 2 ^ 56 ≠ 0 then (s, .error (.cause 0x21 va))
  else
    match s.lookup die part va with
    | (s1, .error .absent) => (s1, .error (.absent va))
    | (s1, .error .reserved) => (s1, .error (.cause 0x21 va))
    | (s1, .error (.ue pa)) => (s1.memUe pa 0, .error (.cause 0x90 va))
    | (s0, .ok (pte, lvl)) =>
      let permitted := (match acc with | .read => bit pte 2 | .write | .atomic => bit pte 3 | .fetch => bit pte 4)
        && (bit pte 5 || decide (level ≠ 0))
      let pa := bits pte 0 52 / 2 ^ pageBits lvl * 2 ^ pageBits lvl + va % 2 ^ pageBits lvl
      let s1 := s0.reserveArray part pte pa
      if !permitted then (s1, .error (.cause 0x21 va))
      else if !(s1.physOk part level engine acc pa) then (s1, .error (.cause 0x21 va))
      else if s1.bad pa n && decide (acc ≠ .write) then (s1.memUe pa acc.code, .error (.cause 0x90 va))
      else (s1, .ok pa)

/-- Whether the page of a global address carries descriptors, by the entry that an access from the die uses (R61, R141). -/
def State.described (s : State) (die part va : Nat) : Bool :=
  match (s.lookup die part va).2 with
  | .ok (pte, _) => bit pte 6
  | .error _ => false

/-- Store sizes by space code: 0 `.g`, 1 `.a`, 2 `.c`, 3 `.w` (R33, R115). -/
def storeSize (space : Nat) : Nat := match space with | 1 => 0x100000 | 2 => 0x40000 | _ => 0x80000

/-- Physical base of an own store by space code. -/
def storeBase (tile space : Nat) : Nat :=
  apertureBase tile + (match space with | 1 => 0 | 2 => cStoreOff | _ => wStoreOff)

/-- The access class of a checked `.g` access and what it moves (R126, R151): HBM through the data cache, which a store
enters and a load or a line fill leaves, or at its point of coherence (`direct`); a tile store or host memory as it lies, but
a buffered store to host memory crosses the attach at its publication only. -/
def State.chargeAccess (s : State) (t : Thread) (acc : Access) (pa z : Nat) (direct : Bool) : State :=
  match regionOf pa with
  | .hbm =>
    if direct then s.chargeMove (s.islandOf t.tile) t.bill t.tile pa z false
    else
      let s1 := s.chargeThread t 0x06 1
      if acc = .write then s1 else s1.chargeMove (s.islandOf t.tile) t.bill t.tile pa z true
  | .host => if acc = .write && !direct then s else s.chargeMove (s.islandOf t.tile) t.bill t.tile pa z false
  | _ => s.chargeMove (s.islandOf t.tile) t.bill t.tile pa z false

/-- Check(space, ea, z, kind) of R127, with the charges of the access (R126, R151); `direct`: at the point of coherence,
as atomics and waits are. -/
def State.check (s : State) (t : Thread) (space : Nat) (acc : Access) (ea : Word) (z : Nat) (direct : Bool := false) :
    State × Except Miss Nat :=
  if space = 0 then
    let s0 := if ea.toNat / 2 ^ 56 ≠ 0 then s else s.chargeLookup (s.islandOf t.tile) t.bill (dieOf t.tile) t.part ea.toNat
    match s0.translate (dieOf t.tile) t.part t.level false acc ea.toNat z with
    | (s1, .error m) => (s1, .error m)
    | (s1, .ok pa) => (s1.chargeAccess t acc pa z direct, .ok pa)
  else if ea.toNat + z > storeSize space then (s, .error (.cause 0x21 ea.toNat))
  else
    let pa := storeBase t.tile space + ea.toNat
    let s1 := s.chargeThread t (match space with | 1 => 3 | 2 => 4 | _ => 5) 1
    if s1.bad pa z && decide (acc ≠ .write) then (s1.memUe pa acc.code, .error (.cause 0x90 ea.toNat)) else (s1, .ok pa)

/-- A byte as a load by the thread returns it (R120). -/
def State.loadByte (s : State) (t : Thread) (pa : Nat) : Byte :=
  match t.buf.find? fun b => b.pa = pa with
  | some b => b.byte
  | none => s.readAt t.snap pa

/-- `n` bytes as a load by the thread returns them. -/
def State.loadBytes (s : State) (t : Thread) (pa n : Nat) : List Byte := (List.range n).map fun i => s.loadByte t (pa + i)

/-- `n` bytes at a global address read as a load (R120, R127), page by page at 64-byte lines. -/
def State.loadGlobal (s : State) (t : Thread) (va n : Nat) : State × Except Miss (List Byte) :=
  match s.check t 0 .read (word va) (min n 64) with
  | (s1, .error m) => (s1, .error m)
  | (s1, .ok pa) => (s1, .ok (s1.loadBytes t pa n))

/-- A store's bytes enter the buffer, the newest first, under the store's own virtual address and account (R122, R126,
R134, R151). -/
def Thread.buffer (t : Thread) (pa va : Nat) (isG : Bool) (bs : List Byte) : Thread :=
  { t with buf := (List.range bs.length).foldl (fun acc i =>
      { pa := pa + i, va, isG, byte := bs.getD i 0, acct := t.bill } :: acc) t.buf }

/-! ### Records (R362, R363) -/

/-- The 128 bytes of a record (R363). -/
def recordBytes (r : Record) : List Byte :=
  leBytes 8 (r.cause + r.kind * 2 ^ 8 + r.name.acct * 2 ^ 10 + r.access * 2 ^ 17 + r.id * 2 ^ 32) ++
  leBytes 8 r.name.pc.toNat ++
  leBytes 8 (r.name.seq.toNat + r.name.thread % 1024 * 2 ^ 32 + r.name.ordinal % 65536 * 2 ^ 42) ++
  leBytes 8 r.value.toNat ++
  leBytes 8 (r.name.inst % 2 ^ 32 + r.name.actor % 65536 * 2 ^ 32) ++
  leBytes 8 r.time ++ zeros 16 ++ (r.ext ++ zeros 48).take 48 ++ zeros 16

/-- Writes the oldest record of the backlog into the record ring while there is room (R362). -/
def State.flushRecord (s : State) (part : Nat) : State :=
  let p := s.part part
  let base := wbits p.recRing 12 44 * 4096
  let lsize := let l := wbits p.recRing 0 4; if 4 ≤ l ∧ l ≤ 12 then l else 4
  match p.backlog with
  | [] => s
  | r :: rest =>
    if base = 0 then s
    else
      match s.translate 0 part 1 false .write base 16 with
      | (s1, .error _) => s1
      | (s1, .ok pa) =>
        let tail := s1.readNat pa 8
        let head := s1.readNat (pa + 8) 8
        -- The counters cannot be read: the error is recorded once, and the backlog waits (R149).
        if s1.bad pa 16 then (if p.backlog.any fun e => decide (e.cause = 0x90 ∧ e.value = word pa) then s1 else s1.memUe pa 0)
        else if tail - head ≥ 2 ^ lsize then s1
        else
          let slot := base + 128 * (1 + tail % 2 ^ lsize)
          match s1.translate 0 part 1 false .write slot 64 with
          | (s2, .error _) => s2
          | (s2, .ok pr) =>
            let s3 := s2.publish (cellsAt pr (recordBytes r) ++ cellsAt pa (leBytes 8 (tail + 1)))
            let p3 := s3.part part
            s3.setPart part { p3 with backlog := rest, recChanged := p3.recChanged + 1 }

/-- Writes as many waiting records as there is room for, at most `n`. -/
def State.flushRecords (s : State) (part : Nat) : Nat → State
  | 0 => s
  | n + 1 => (s.flushRecord part).flushRecords part n

/-- A record goes to the partition's ring under the next identifier; it answers that identifier. -/
def State.addRecord (s : State) (part : Nat) (r : Record) : State × Nat :=
  let (s1, id) := s.queueRecord part r
  (s1.flushRecords part ((s.part part).backlog.length + 1), id)

/-- An error record: KIND 3 to the owning partition's ring, and to the device error log (R378, R379). -/
def State.errorRecord (s : State) (part : Option Nat) (cause : Nat) (value : Word) : State :=
  let s1 := s.errorQueued part { cause, kind := 3, value }
  match part with
  | some p => s1.flushRecords p (s1.part p).backlog.length
  | none => s1

/-! ### Rings (R186 to R190) -/

def Handle.base (h : Handle) : Nat := wbits h.d0 0 20
def Handle.lrcb (h : Handle) : Nat := wbits h.d0 20 20
def Handle.prcb (h : Handle) : Nat := wbits h.d0 40 20
def Handle.role (h : Handle) : Nat := wbits h.d0 60 1
def Handle.slot64 (h : Handle) : Nat := wbits h.d1 0 10
def Handle.depth (h : Handle) : Nat := wbits h.d1 10 12
def Handle.peer (h : Handle) : Nat := wbits h.d1 22 8
def Handle.peerKind (h : Handle) : Nat := wbits h.d1 30 2
def Handle.nrep (h : Handle) : Nat := wbits h.d1 32 3
def Handle.repix (h : Handle) : Nat := wbits h.d1 35 3
def Handle.repTile (h : Handle) (k : Nat) : Nat := wbits h.d2 (8 * (k - 1)) 8
def Handle.pva (h : Handle) : Nat := wbits h.d3 0 56
def Handle.slotB (h : Handle) : Nat := 64 * h.slot64

/-- The remote counter of an end on a tile (R190). -/
def State.remote (s : State) (tile : Nat) (h : Handle) : Nat :=
  let cb := apertureBase tile + h.lrcb
  if h.role = 0 then s.readNat cb 8
  else (List.range h.nrep).foldl (fun m k => min m (s.readNat (cb + 0x10 + 8 * k) 8)) (s.readNat cb 8)

/-- Whether an end's control block, one 64-byte line, holds an uncorrectable error (R149, R188). -/
def State.blockBad (s : State) (tile : Nat) (h : Handle) : Bool := s.bad (apertureBase tile + h.lrcb) 64

/-- Avail(h) as an integer; outside 0 to DEPTH the reader raises SHAPE (R190). -/
def State.availInt (s : State) (tile : Nat) (h : Handle) : Int :=
  if h.role = 0 then (s.remote tile h : Int) - h.l.toNat - h.p
  else (h.depth : Int) - (h.l.toNat + h.p - (s.remote tile h : Int))

/-- Whether the control block's own counters, as they stand in memory, keep the range of R188. -/
def State.countersOk (s : State) (tile : Nat) (h : Handle) : Bool :=
  let own : Int := s.readNat (apertureBase tile + h.lrcb + 8) 8
  let d : Int := if h.role = 0 then (s.remote tile h : Int) - own else own - (s.remote tile h : Int)
  decide (0 ≤ d ∧ d ≤ h.depth)

/-- Avail(h), or none where the control block cannot be read (R149) or the counters, LOCAL as it stands in memory among them,
break R188. The handle's own copy of LOCAL is the *L* that counts; a store by a program to LOCAL that keeps the range does
not change it (DESIGN CHOICE, log 122: R188 has the device read the counters as they stand, R190 has *L* equal LOCAL). -/
def State.avail? (s : State) (tile : Nat) (h : Handle) : Option Nat :=
  let a := s.availInt tile h
  if s.blockBad tile h = false ∧ s.countersOk tile h ∧ 0 ≤ a ∧ a ≤ h.depth then some a.toNat else none

/-- Whether applying slots at an end reaches what is not its partition's: a peer's tile, or an arc link that is not assigned
(R370). -/
def State.endBarred (s : State) (tile : Nat) (h : Handle) : Bool :=
  let owner := (s.tile tile).owner
  match h.peerKind with
  | 0 => (h.peer :: (List.range h.nrep).map fun k => h.repTile (k + 1)).any fun n => decide ((s.tile n).owner ≠ owner)
  | 2 => !(owner.any fun p => bit (s.part p).links h.peer)
  | _ => false

/-- Avail(h) for what takes slots, none also where the taken slots would reach what is not the partition's (R370). -/
def State.availTo? (s : State) (tile : Nat) (h : Handle) : Option Nat := if s.endBarred tile h then none else s.avail? tile h

/-- Head(h) (R190). -/
def Handle.head (h : Handle) : Nat := (h.l.toNat + h.p) % h.depth

/-- The tile whose A-store holds the slots (R186). -/
def Handle.slotTile (h : Handle) (tile : Nat) : Nat :=
  if h.role = 1 ∧ h.peerKind = 0 then h.peer else tile

/-- Physical address of the slot a counter value refers to (R186). -/
def Handle.slotPa (h : Handle) (tile v : Nat) : Nat :=
  apertureBase (h.slotTile tile) + h.base + v % h.depth * h.slotB

/-- The counter writes of applying `n` slots: LOCAL and every tile peer's REMOTE (R190, R194). -/
def Handle.applyCells (h : Handle) (tile n : Nat) : List (Nat × Byte) :=
  let v := leBytes 8 ((h.l.toNat + n) % 2 ^ 64)
  cellsAt (apertureBase tile + h.lrcb + 8) v ++
    (if h.peerKind = 0 then
      (if h.role = 0 then
        cellsAt (apertureBase h.peer + h.prcb + (if h.repix = 0 then 0 else 8 + 8 * h.repix)) v
      else
        cellsAt (apertureBase h.peer + h.prcb) v ++
          ((List.range h.nrep).flatMap fun k => cellsAt (apertureBase (h.repTile (k + 1)) + h.prcb) v))
    else [])

/-- The handle after `n` taken slots have been applied. -/
def Handle.applied (h : Handle) (n : Nat) : Handle := { h with l := h.l + word n, p := h.p - n }

/-! ### Aborting a region (R147) -/

/-- The pages of a thread. -/
def State.pagesOf (s : State) (t : Thread) : List Page :=
  (s.pages.map Prod.snd).filter fun p => p.part = t.part ∧ p.inst = t.inst ∧ p.ordinal = t.ordinal

/-- How many slots of a handle the ports of the thread's pages have taken and not applied. -/
def State.portTaken (s : State) (t : Thread) (h : Nat) : Nat :=
  (s.pagesOf t).foldl (fun n pg => pg.st.ports.foldl (fun n e =>
    if portHandle pg.image e.1 = h then n + e.2.finished + (if e.2.isOpen then 1 else 0) else n) n) 0

/-- How many slots of a handle the open region has taken: deferred takes and its commands' slots. -/
def deferredOn (r : Region) (h : Nat) : Nat :=
  r.deferred.foldl (fun n d => match d with | .take k m => if k = h then n + m else n) 0

/-- Every command of a tile's queues. -/
def Tile.cmds (tl : Tile) : List Cmd := tl.mxQ ++ tl.skQ ++ tl.cpQ

/-- The tile's queues with some commands dropped. -/
def Tile.dropCmds (tl : Tile) (f : Cmd → Bool) : Tile :=
  { tl with mxQ := tl.mxQ.filter (!f ·), skQ := tl.skQ.filter (!f ·), cpQ := tl.cpQ.filter (!f ·) }

/-- A withdrawn wait: an arrival at `bar` and a place among a queue's waiters are given up (R84, R112, R329). -/
def State.withdraw (s : State) (t : Thread) : State :=
  match t.wait with
  | none => s
  | some w =>
    match w.instr with
    | .bar _ =>
      let tl := s.tile t.tile
      s.setTile t.tile { tl with barArr := if bit tl.barArr t.index then tl.barArr - 2 ^ t.index else tl.barArr }
    | .qWait _ => { s with queues := s.queues.map fun q => { q with waiters := q.waiters.filter (· ≠ t.num) } }
    | _ => s

/-- Steps 1 to 4 of the abort of an open region (R147). The back-edge records of the slots it gives back go (R218). An
`ms.stop` of the region that has not completed is cancelled, and its subscription goes on; a subscription that the region
began ends with it (log 98). -/
def State.abortRegion (s : State) (t : Thread) : State × Thread :=
  match t.region with
  | none => (s, t)
  | some r =>
    let back (h : Nat) : Nat := deferredOn r h + s.portTaken t h
    let s1 : State := s.withdraw t
    let s2 : State := s1.setTile t.tile ((s1.tile t.tile).dropCmds fun (c : Cmd) => decide (c.name.thread = t.num) && c.inRegion)
    let stops (k : Name × Nat × Nat) : Bool := decide (k.1.thread = t.num ∧ k.2.1 ≥ r.firstCmd)
    let s3 : State := { s2 with
      subs := (s2.subs.filter fun (u : Sub) => ¬ (u.thread = some t.num ∧ u.inRegion)).map fun u =>
        let left := u.stoppers.filter (!stops ·)
        { u with stoppers := left, stopping := u.stopping && (!(u.stoppers.any stops) || !left.isEmpty) }
      pages := s2.pages.map fun e =>
        if e.2.part = t.part ∧ e.2.inst = t.inst ∧ e.2.ordinal = t.ordinal then
          (e.1, { e.2 with st := { initialRegion e.2.image with flags := e.2.st.flags } })
        else e }
    let hs := (List.range 16).foldl (fun hs k =>
      let h := hs.toArray.getD k {}
      hs.setIfInBounds k { h with p := h.p - back k }) t.handles
    let given (e : Nat × Nat × Nat × List Byte) : Bool :=
      let h := hs.toArray.getD e.2.1 {}
      decide (e.1 = t.actor ∧ h.l.toNat + h.p ≤ e.2.2.1)
    let s4 : State := match s3.inst? t.part t.inst with
      | some i => s3.setInst { i with cut := i.cut.map fun c => { c with slots := c.slots.filter (!given ·) } }
      | none => s3
    (s4, { t with
      state := .stopped, pc := r.startPc, regs := r.regs, preds := r.preds, spill := r.spill
      handles := hs, buf := [], region := none, wait := none, waitCount := 0
      expects := t.expects.map fun e => if e.inRegion then {} else e })

/-- The thread has engine commands that have not completed (R108, R133): in its tile's engines, or a
pull or a stop at an MSE. -/
def State.outstanding (s : State) (t : Thread) : Bool :=
  (s.tile t.tile).cmds.any (fun c => decide (c.name.thread = t.num)) ||
    s.subs.any fun u => (decide (u.thread = some t.num) && u.left.isSome) || u.stoppers.any fun k => decide (k.1.thread = t.num)

/-- A thread is stopped between two instructions (R113, R150, R365): its wait is withdrawn, but a `phase.sync` whose
commands are done is complete; an open region is aborted, else the buffered stores are published. The record of an
aborted task is kept for its requeue (R148). -/
def State.halt (s : State) (t : Thread) : State × Thread :=
  let synced := t.wait.any (fun w => decide (w.instr = .phaseSync)) && t.region.isNone && !(s.outstanding t)
  let task := t.region.bind fun r => if r.isTask then some (r.queue, r.record) else none
  let s0 := s.withdraw t
  let (s1, t1) := if t.region.isSome then s0.abortRegion t else s0.publishAll { t with pc := if synced then t.pc + 4 else t.pc }
  (s1, { t1 with state := .stopped, wait := none, waitCount := 0, held := none, copying := none, task := if task.isSome then task else t1.task })

/-- The trace event of a trap or of a record for a thread (R386). -/
def State.traceTrap (s : State) (t : Thread) (cause : Nat) (pc : Word) (seq : Half) (value : Word) : State :=
  s.trace t 6 cause pc seq value [(0, word cause), (1, pc)]

/-- The abort of a region with its record (R147 steps 1 to 5): KIND 0, which `TC_XDONE` requeues. -/
def State.abortWithRecord (s : State) (t : Thread) (cause access : Nat) (value : Word) (name : Name)
    (ext : List Byte) : State :=
  let task := t.region.bind fun r => if r.isTask then some (r.queue, r.record) else none
  let (s1, t1) := (s.traceTrap t cause name.pc name.seq value).abortRegion t
  let (s2, id) := s1.addRecord t.part { cause, kind := 0, access, name, value, ext }
  let p := s2.part t.part
  (s2.setPart t.part { p with owed := (id, .region t.num task) :: p.owed }).setThread { t1 with recordId := id }

/-! ### Taking an exception and returning from one (R30, R355 to R361) -/

/-- The wait of a `phase.sync` in progress, which completes before a save (R150). -/
def Thread.syncWait (t : Thread) : Option Wait := t.wait.filter fun w => decide (w.instr = .phaseSync)

/-- Whether the stop of a thread outside a region waits: it has engine commands that have not completed (R284, R308, R315),
or a `phase.sync` in progress waits for an MSE (R150). -/
def State.stopWaits (s : State) (t : Thread) : Bool :=
  (s.tile t.tile).cmds.any (fun c => decide (c.name.thread = t.num)) || (t.syncWait.isSome && s.outstanding t)

/-- The stop of a thread with a record of KIND 1 (R358): its region is aborted, or its context saved as it stands. -/
def State.stopNow (s : State) (t : Thread) (d : Pending) : State :=
  let (s1, t1) := s.halt { t with stopDue := none }
  let (s2, id) := s1.addRecord t.part { cause := d.cause, kind := 1, value := d.tval, name := t.nameAt d.tpc d.tseq }
  let p := s2.part t.part
  (s2.setPart t.part { p with owed := (id, .thread t.num) :: p.owed }).setThread { t1 with recordId := id }

/-- Level S of the partition receives the stop of a thread, whose saved program counter is the resume address (R358). The
stop waits for the thread's accepted commands, or the region that it has open is aborted. -/
def State.stopWithRecord (s : State) (t : Thread) (cause : Nat) (value tpc : Word) (tseq : Half) (rpc : Word) : State :=
  let s0 := s.traceTrap t cause tpc tseq value
  let t0 := { t with pc := rpc, wait := t.syncWait }
  if t.region.isNone && s0.stopWaits t0 then
    (s0.withdraw t).setThread { t0 with state := .waiting, waitCount := 0, stopDue := some ⟨cause, tpc, tseq, value⟩ }
  else (s0.withdraw t).stopNow t0 ⟨cause, tpc, tseq, value⟩

/-- Trap(cause, value): entered at level S on the thread where it runs at level U outside a handler
and a vector is set (R357); otherwise taken at M (R358). The wait is withdrawn (R84). -/
def State.takeTrap (s : State) (t : Thread) (cause : Nat) (value tpc : Word) (tseq : Half) (rpc : Word) : State :=
  let vec := (s.part t.part).vec
  if t.level = 0 ∧ t.hnd = false ∧ vec ≠ 0 then
    ((s.traceTrap t cause tpc tseq value).withdraw t).setThread { t with
      tsw := t.sw, cause := word cause, tval := value, tpc, tseq, rpc
      sw := swOf 1 1 t.prio t.acct
      pc := vec, state := .ready, wait := none, held := none, copying := none }
  else s.stopWithRecord t cause value tpc tseq rpc

/-- The rule of `tret` (R361): the saved status and the resume address are checked, then restored. -/
def State.returnFromTrap (s : State) (t : Thread) (word0 : Word) : State :=
  let v := t.tsw
  let ok := decide (wbits v 12 52 = 0) && decide (wbits v 0 2 ≠ 3) && decide (wbits v 2 1 = 0) &&
    ((s.part t.part).functions.contains (wbits v 5 7) || decide (wbits v 5 7 = 64))
  if t.hnd = false then s.takeTrap t 0x01 word0 t.pc t.seq t.pc
  else if !ok then s.stopWithRecord t 0x04 v t.pc t.seq t.pc
  else if wbits v 0 2 > t.level then s.stopWithRecord t 0x02 v t.pc t.seq t.pc
  else if t.rpc.toNat % 4 ≠ 0 then s.stopWithRecord t 0x03 t.rpc t.pc t.seq t.pc
  else s.setThread { t with sw := v, pc := t.rpc, afterTret := true }

/-- A synchronous trap of an instruction other than `trap` and `dbg.brk`: the resume address is the
instruction itself (R355). -/
def State.raise (s : State) (t : Thread) (i : Instr) (cause : Nat) (value : Word) : State :=
  s.takeTrap t cause value t.pc (seqOf i t) t.pc

/-- A synchronous trap whose value the spec does not state: the value is free (log 7). -/
def State.raiseFree (s : State) (t : Thread) (i : Instr) (cause : Nat) : State :=
  { s with fresh := s.fresh + 1 }.raise t i cause (Config.freeWord s.fresh)

/-- A failed access of a thread instruction (R146, R149): a missing page or an uncorrectable error
aborts an open region; everything else is a precise trap. -/
def State.missed (s : State) (t : Thread) (i : Instr) (acc : Access) (m : Miss) : State :=
  let c : Nat × Nat := match m with | .absent va => (0x22, va) | .cause c v => (c, v)
  if t.region.isSome ∧ (c.1 = 0x22 ∨ c.1 = 0x90) then
    s.abortWithRecord t c.1 acc.code (word c.2) (t.nameAt t.pc (seqOf i t)) []
  else s.raise t i c.1 (word c.2)

/-- A KIND 1 record for a thread that is Stopped (R359). Its identifier restores the thread unless an earlier record does. -/
def State.recordStopped (s : State) (t : Thread) (cause : Nat) (value tpc : Word) (tseq : Half) : State :=
  let (s1, id) := (s.traceTrap t cause tpc tseq value).addRecord t.part { cause, kind := 1, value, name := t.nameAt tpc tseq }
  if t.recordId ≠ 0 then s1
  else
    let p := s1.part t.part
    (s1.setPart t.part { p with owed := (id, .thread t.num) :: p.owed }).setThread { t with recordId := id }

/-- An asynchronous trap reaches a thread (R359): held until it can be delivered; the seventeenth
stops the thread with a record of that cause, which a thread that has stopped already keeps beside what it waits for;
in an open region of its own work it aborts with the access kind (R280, R363). -/
def State.asyncTrap (s : State) (n : Name) (inRegion : Bool) (cause access : Nat) (value : Word) : State :=
  match s.thread? n.thread with
  | none => s
  | some t =>
    if inRegion ∧ t.region.isSome then s.abortWithRecord t cause access value n []
    else if t.pending.length ≥ 16 then
      if t.state = .stopped ∨ t.stopDue.isSome then s.recordStopped t cause value n.pc n.seq else s.stopWithRecord t cause value n.pc n.seq t.pc
    else s.setThread { t with pending := t.pending ++ [⟨cause, n.pc, n.seq, value⟩] }

/-- Delivers the oldest pending asynchronous trap at an instruction boundary with HND = 0 (R359): an
`idle` it ends is complete (R382), any other wait is withdrawn. -/
def State.deliver (s : State) (t : Thread) : State :=
  match t.pending with
  | [] => s
  | p :: rest =>
    if t.hnd ∨ t.state = .stopped ∨ t.stopDue.isSome then s
    else
      let rpc := match t.wait with
        | some w => if w.instr = .idle then t.pc + 4 else t.pc
        | none => t.pc
      s.takeTrap { t with pending := rest } p.cause p.tval p.tpc p.tseq rpc

/-! ### Replay (R403) -/

/-- What the replay of a log says to a thread that is about to perform a logged event (R403). -/
inductive Gate where
  /-- No replay. -/
  | live
  /-- The event's turn has not come. -/
  | hold
  /-- The log's next event is this one. -/
  | hit (r : LogRec)
  /-- The thread's next event differs from its next logged event. -/
  | diverged
  deriving DecidableEq, Repr

/-- The thread's place in a replay, for an event of a type that an instruction makes: while the log lasts, an event that is
not its next one waits (R403). -/
def State.gate (s : State) (t : Thread) (i : Instr) (typ : Nat) : Gate :=
  match (s.part t.part).replay with
  | [] => .live
  | r :: _ =>
    if r.ordinal = t.ordinal ∧ r.inst = t.inst then
      if r.typ = typ ∧ r.pc = t.pc ∧ r.seq = seqOf i t then .hit r else .diverged
    else .hold

/-- A Ready thread's event waits for its turn (R403), or a spawn for the exit of the thread whose slot the log gives it
(R107): until then its next instruction could not issue. -/
def State.holdBack (s : State) (num : Nat) (slot : Option Nat := none) : State :=
  match s.thread? num with
  | some t => if t.state = .ready then s.setThread { t with held := some ((s.part t.part).replayPos, slot) } else s
  | none => s

/-- How far Encke has come with a partition's image: the chunks left, and the bytes written of the first (R400). -/
def State.copyPos (s : State) (part : Nat) : Nat × Nat :=
  let p := s.part part
  ((p.ckImage.getD []).length, p.ckChunkPos)

/-- Whether a thread's next event waits: for its turn in the replay (R403), unless a trap that it can take comes first, or
for Encke to copy what its publication changes (R399, R400). -/
def State.heldBack (s : State) (t : Thread) : Bool :=
  (t.copying.any fun e => decide (s.copyPos e.1 = e.2)) ||
  decide ((s.part t.part).replay ≠ []) && (decide (t.pending = []) || t.hnd) &&
    t.held.any fun e => decide (e.1 = (s.part t.part).replayPos) && e.2.all fun n => (s.thread? n).isSome

/-- Takes the next event of the log (R403); the replay ends with the log. -/
def State.popReplay (s : State) (part : Nat) : State :=
  let p := s.part part
  s.setPart part { p with replay := p.replay.tail, replayAt := p.replayAt.tail
                          replayPos := p.replayAt.tail.headD (p.replayPos + 1)
                          ckReplay := decide (p.replay.tail ≠ []) && p.ckReplay }

/-- A replay that diverges stops the instance with a KIND 2 record (R403); what follows the step at once stops it. -/
def State.diverge (s : State) (t : Thread) : State :=
  let (s1, _) := s.addRecord t.part { cause := 0x04, kind := 2, value := word (s.part t.part).replayPos,
                                       name := { part := t.part, inst := t.inst } }
  { s1 with insts := s1.insts.map fun i => if i.part = t.part ∧ i.num = t.inst then { i with stopDue := true, diverged := true } else i }

/-! ### Issue (R29) -/

/-- A thread's first issue starts its first phase (R121). -/
def State.begin_ (s : State) (t : Thread) : Thread := if t.begun then t else { t.phaseStart s with begun := true }

/-- A thread as its issue leaves it: its first phase has begun, its wait time starts afresh (R85). -/
def issuedBy (s : State) (t : Thread) : Thread := { s.begin_ t with afterTret := false, waitCount := 0, wait := none, held := none, copying := none }

/-- The state in which an issued instruction has its own effect: the issue is charged (R29 step 5, R30). -/
def issuedIn (s : State) (t : Thread) : State :=
  { (s.chargeThread (issuedBy s t) 0x00 1).setThread (issuedBy s t) with pubBy := some (t.part, t.inst, t.ordinal) }

/-- The meaning of a control instruction around its own effect `k`: the issue charge, ILL for an
instruction the formats do not allow, PRIV below the form's least level (R29 steps 1 to 5). A thread
that is not Ready does not issue. -/
def issue (i : Instr) (least : Nat) (s : State) (k : State → Thread → State) : Out :=
  match s.thread? s.cur with
  | none => .fault .noAgent
  | some t =>
    if t.state ≠ .ready then .next s
    else if !(wellFormed i) then .next ((issuedIn s t).raise (issuedBy s t) i 0x01 (word (firstWord i).toNat))
    else if (issuedBy s t).level < least then .next ((issuedIn s t).raise (issuedBy s t) i 0x02 (word (firstWord i).toNat))
    else .next (k (issuedIn s t) (issuedBy s t))

/-- The program counter after an instruction (R26). -/
def Thread.nextPc (t : Thread) (i : Instr) : Word := t.pc + word (lengthBytes i)

/-- The thread goes on at the next instruction. -/
def State.advance (s : State) (t : Thread) (i : Instr) : State :=
  s.setThread { t with pc := t.nextPc i, state := .ready, wait := none }

/-- The thread becomes Waiting at the instruction (R84). -/
def State.waitAt (s : State) (t : Thread) (i : Instr) (pa : Nat := 0) : State :=
  s.setThread { t with state := .waiting, waitCount := 0
                       wait := some ((t.wait.filter fun w => w.instr = i).getD { instr := i, pa, since := s.dev.time }) }

/-- A thread's event under a replay: performed when its turn has come, with the log's record taken; until then the
state stays as it was before the instruction; a replay that diverges stops (R403). -/
def State.turn (s s0 : State) (t : Thread) (i : Instr) (typ : Nat) (k : State → Option LogRec → State) : State :=
  match s.gate t i typ with
  | .hold => s0.holdBack t.num
  | .diverged => s.diverge t
  | .hit r => k (s.popReplay t.part) (some r)
  | .live => k s none

/-- A thread's event with a value: the logged one under replay, else the live one; the log grows (R401, R403). -/
def State.event (s s0 : State) (t : Thread) (i : Instr) (typ a : Nat) (live : Word) (k : State → Word → State) : State :=
  s.turn s0 t i typ fun s r =>
    let v := (r.map LogRec.b).getD live
    k (s.logThread t (seqOf i t) typ a v) v

/-- The trace event of a command that completes or faults, with its first operand address (R386, R389). -/
def State.traceDone (s : State) (n : Name) (cause : Nat) : State :=
  match s.thread? n.thread with
  | none => s
  | some t => s.trace t 5 cause n.pc n.seq (n.operand.getD 0)
      ([(1, n.pc)] ++ (if cause = 0 then [] else [(0, word cause)]) ++ (n.operand.toList.map fun a => (2, a)))

/-! ### The end of a subscription (R320, R321) -/

/-- The direction of a subscription: whether it pulls (R317). -/
def Sub.pulls (u : Sub) : Bool := bit (field u.record 0 1) 0

def State.setSub (s : State) (u : Sub) : State := { s with subs := s.subs.map fun x => if x.id = u.id then u else x }

/-- A subscription has gone: an MSE actor ends, and the commands that waited for it complete. -/
def State.dropSub (s : State) (u : Sub) : State :=
  let s1 := { s with subs := s.subs.filter fun x => decide (x.id ≠ u.id) }
  let s2 := match s1.inst? u.name.part u.name.inst with
    | some i => if u.actor = 0xFFFF then s1
      else s1.setInst { i with actors := i.actors.mapIdx fun k x => if k = u.actor then { x with ended := true } else x }
    | none => s1
  let s3 := if u.left.isSome then s2.traceDone u.name 0 else s2
  u.stoppers.foldl (fun s k => s.traceDone k.1 0) s3

/-- A subscription stops: a push at its slot boundary, a pull once it has taken every slot posted until now. -/
def State.stopSub (s : State) (u : Sub) : State :=
  let posted := s.readNat (apertureBase u.tile + u.desc.lrcb + 8) 8
  if u.pulls && !u.finished && decide (u.posted < posted) then s.setSub { u with stopping := true, stopAt := posted } else s.dropSub u

/-- An engine command takes its sequence number at its issue (R23). -/
def Thread.bumpSeq (t : Thread) : Thread := { t with seq := t.seq + 1 }

end Sys2Proof.Machine
end

