-- ==== Sys2Proof/Machine/Operands.lean ====
section
/-! DEFINITION. Operand forms of control instructions: immediates, targets, effective addresses. -/

namespace Sys2Proof.Machine

/-- A signed immediate of any width, extended to 64 bits (R95). -/
def sextTo (n : Nat) {w : Nat} (v : BitVec w) : BitVec n := BitVec.signExtend n v

/-- A branch target: the branch's address plus 4 × sext(offset) (R28). -/
def target {w : Nat} (pc : Word) (o : BitVec w) : Word := pc + 4 * sextTo 64 o

/-- The effective address of a load, store or wait: base plus the offset scaled by the size (R126, R128, R137). -/
def effective {w : Nat} (t : Thread) (a : BitVec 5) (o : BitVec w) (z : Nat) : Word :=
  t.reg a.toNat + word z * sextTo 64 o

/-- The low `8 z` bits of a scalar as bytes, least significant first (R126). -/
def dataBytes (v : Word) (z : Nat) : List Byte := leBytes z v.toNat

/-- The number in some bytes as a 64-bit value, zero-extended or sign-extended (R126). -/
def extend (signed_ : Bool) (bs : List Byte) : Word :=
  if signed_ then wordInt (signed (8 * bs.length) (leNat bs)) else word (leNat bs)

/-- Writes the result of a register instruction and goes on (R91, R93). -/
def State.result (s : State) (t : Thread) (i : Instr) (d : BitVec 5) (v : Word) : State :=
  s.advance (t.setReg d.toNat v) i

/-- Writes consecutive scalars from `d` up, in ascending order (R91). -/
def Thread.setGroup (t : Thread) (d : Nat) : List Word → Thread
  | [] => t
  | v :: r => (t.setReg d v).setGroup (d + 1) r

end Sys2Proof.Machine
end

