-- ==== Sys2Proof/Machine/Flags.lean ====
section
/-! DEFINITION. The conditions of the control instructions and the sticky arithmetic flags (R70). -/

namespace Sys2Proof.Machine

/-- The conditions of `cmp.cc` (R97). -/
def condEq (a b : Word) : Bool := a = b
def condNe (a b : Word) : Bool := a ≠ b
def condLt (a b : Word) : Bool := a.slt b
def condGe (a b : Word) : Bool := !a.slt b
def condLtu (a b : Word) : Bool := a.ult b
def condGeu (a b : Word) : Bool := !a.ult b

/-- The five sticky flags as a unit raises them: NV, OF, UF, NX, FM in bit order (R70, R181). -/
structure Flags where
  nv : Bool := false
  of : Bool := false
  uf : Bool := false
  nx : Bool := false
  fm : Bool := false
  deriving DecidableEq, Repr

/-- The flags of two operations together (R70). -/
def Flags.or (a b : Flags) : Flags :=
  ⟨a.nv || b.nv, a.of || b.of, a.uf || b.uf, a.nx || b.nx, a.fm || b.fm⟩

/-- The flags as the low five bits of a status register (R181, R283, R288). -/
def Flags.toBits (f : Flags) : BitVec 5 :=
  BitVec.ofNat 5 ((if f.nv then 1 else 0) + (if f.of then 2 else 0) + (if f.uf then 4 else 0) +
    (if f.nx then 8 else 0) + (if f.fm then 16 else 0))

/-- Sets sticky flags: a set flag stays set (R70). -/
def stick (old : BitVec 5) (f : Flags) : BitVec 5 := old ||| f.toBits

end Sys2Proof.Machine
end

