-- ==== Sys2Proof/Machine/Ring.lean ====
section
/-! DEFINITION. The ring instructions, major 0x20 (R186 to R196), and the rate checks of a firing's
takes (R237, R238). -/

namespace Sys2Proof.Machine

/-- The conditions of a ring descriptor at an end on a tile (R189), each with the word of the descriptor that it is a
condition of; one that joins two words counts for the later of them (log 109). -/
def descChecks (s : State) (tile : Nat) (h : Handle) : List (Nat × Bool) :=
  let tilePeer := decide (h.peerKind = 0)
  let prod := decide (h.role = 1)
  let present (n : Nat) : Bool := decide (n < 192) && (s.tile n).present
  [(0, decide (h.base % 64 = 0 ∧ h.lrcb % 64 = 0 ∧ h.prcb % 64 = 0 ∧ wbits h.d0 61 3 = 0)),
   (1, decide (wbits h.d1 38 26 = 0) && (tilePeer || decide (h.prcb = 0)) && decide (2 ≤ h.slot64 ∧ 1 ≤ h.depth ∧ h.peerKind ≠ 3) &&
     (match h.peerKind with | 0 => present h.peer | 1 => decide (h.peer < 16) | _ => decide (h.peer < 12)) &&
     (if prod && tilePeer then decide (h.nrep ≤ 6) else decide (h.nrep = 0)) &&
     (if prod then decide (h.repix = 0) else decide (h.repix ≤ 6)) &&
     decide (h.base + h.depth * h.slotB ≤ 0x100000) &&
     (decide (h.slotTile tile ≠ tile) || decide (h.lrcb + 64 ≤ h.base) || decide (h.base + h.depth * h.slotB ≤ h.lrcb))),
   (2, decide (wbits h.d2 48 16 = 0) &&
     (List.range 6).all fun k => if k < h.nrep then present (h.repTile (k + 1)) else decide (h.repTile (k + 1) = 0)),
   (3, decide (wbits h.d3 56 8 = 0) &&
     (if prod && tilePeer && decide (h.nrep = 0) then decide (h.pva % 2 ^ 20 = 0) else decide (h.pva = 0)))]

/-- The ranges and reserved bits of a ring descriptor at an end on a tile (R189). -/
def descOk (s : State) (tile : Nat) (h : Handle) : Bool := (descChecks s tile h).all Prod.snd

/-- The rate block of an actor in a mode (R226): the phase count and the counts by handle and phase. -/
def Inst.rate (i : Inst) (mode actor : Nat) : Nat × List (List Nat) := i.rates.getD (mode * i.actors.length + actor) (1, [])

/-- The declared count of a handle, none where it is not monitored (R220). -/
def Inst.declared (i : Inst) (mode actor phase h : Nat) : Option Nat :=
  let c := (((i.rate mode actor).2).getD h []).getD phase 0xFFFF
  if c = 0xFFFF then none else some c

/-- The declared count of a handle in the thread's open firing (R237). -/
def State.declared (s : State) (t : Thread) (h : Nat) : Option Nat :=
  match t.region, s.inst? t.part t.inst with
  | some r, some i => if r.isTask then none else i.declared r.mode t.actor r.phase h
  | _, _ => none

/-- The rate extension of a record (R238). -/
def rateExt (idx : Nat) (isPort excess : Bool) (phase mode declared observed page actor firings : Nat) : List Byte :=
  leBytes 4 (idx + (if isPort then 16 else 0) + (if excess then 32 else 0) + phase * 64 + mode * 1024) ++
  leBytes 2 declared ++ leBytes 2 (min observed 0xFFFF) ++ leBytes 2 page ++ leBytes 2 actor ++ leBytes 4 firings

/-- Abort(RATE) on a handle or a port of a thread's firing, naming an instruction (R237, R238); VALUE
holds the first eight bytes of the rate extension unless `slotVal` gives a slot address. -/
def State.rateAbort (s : State) (t : Thread) (name : Name) (idx : Nat) (isPort excess : Bool)
    (declared observed page : Nat) (stopExt : List Byte) (slotVal : Option Word) : State :=
  let r := t.region
  let phase := (r.map Region.phase).getD 0
  let mode := (r.map Region.mode).getD 0
  let firings := match s.inst? t.part t.inst with | some i => (i.actors.getD t.actor {}).firings | none => 0
  let e := rateExt idx isPort excess phase mode declared observed page t.actor firings
  s.abortWithRecord t 0x42 0 (slotVal.getD (word (leNat (e.take 8)))) name ((stopExt ++ zeros 32).take 32 ++ e)

/-- Whether a take of `n` slots stays within the declared count (R238). -/
def State.takeOk (s : State) (t : Thread) (h n : Nat) : Bool :=
  match s.declared t h, t.region with
  | some c, some r => decide (r.taken.toArray.getD h 0 + n ≤ c)
  | _, _ => true

/-- A take that is too large aborts the firing, naming the instruction (R238). -/
def State.takeExcess (s : State) (t : Thread) (i : Instr) (h n : Nat) : State :=
  let got := (t.region.map fun r => r.taken.toArray.getD h 0).getD 0
  s.rateAbort t (t.nameAt t.pc (seqOf i t)) h false true ((s.declared t h).getD 0) (got + n) 0 [] none

/-- Slots counted as taken in the open region (R237). -/
def Thread.countTaken (t : Thread) (h n : Nat) : Thread :=
  { t with region := t.region.map fun r => { r with taken := r.taken.setIfInBounds h (r.taken.toArray.getD h 0 + n) } }

/-- A ring instruction's issue with its RING charge (R191). -/
def ringIssue (i : Instr) (s : State) (k : State → Thread → State) : Out :=
  issue i 0 s fun s t => k (s.chargeThread t 0x20 1) t

/-- The checks of R191: the handle is bound, its role fits, and the count is in range. -/
def ringCheck (h : Handle) (role : Option Nat) (noRep : Bool) (n limit : Nat) : Option Nat :=
  if !h.bound then some 0x04
  else if role.any (· ≠ h.role) then some 0x04
  else if noRep && decide (h.nrep ≠ 0) then some 0x04
  else if n > limit then some 0x06
  else none

/-- A ring instruction finds its end's control block unreadable, which is MEM_UE (R149), its counters outside the range of
R188, which is SHAPE, or its slots reaching what is not the partition's, which is PROT (R370). The spec states no value for
the last two. -/
def State.ringFault (s : State) (t : Thread) (i : Instr) (h : Handle) : State :=
  if s.blockBad t.tile h then (s.memUe (apertureBase t.tile + h.lrcb) 0).missed t i .read (.cause 0x90 h.lrcb)
  else s.raiseFree t i (if (s.avail? t.tile h).isNone then 0x06 else 0x21)

/-- The handle that an engine command names (R192). -/
def CmdOp.handle? : CmdOp → Option Nat
  | .run h .. | .out h .. | .skLoad h .. | .skStore h .. | .noop h => h
  | _ => none

/-- Whether a command of the thread that has not completed names a handle (R192). -/
def State.handleBusy (s : State) (t : Thread) (hn : Nat) : Bool :=
  (s.tile t.tile).cmds.any (fun c => decide (c.name.thread = t.num) &&
    (decide (c.op.handle? = some hn) || c.slots.any fun e => decide (e.1 = hn))) ||
  s.subs.any fun u => (decide (u.thread = some t.num ∧ u.handle = hn) && u.left.isSome) ||
    u.stoppers.any fun k => decide (k.1.thread = t.num ∧ k.2.2 = hn)

/-- `ring.def` (R192). -/
def execRingDef (h a : BitVec 5) (s : State) : Out :=
  issue (.ringDef h a) 0 s fun s0 t =>
    let s := s0.chargeThread t 0x20 1
    let i := Instr.ringDef h a
    let v := t.reg a.toNat
    let old := t.handle h.toNat
    let busy := old.bound && (decide (old.p ≠ 0) ||
      (s.pagesOf t).any (fun p => p.region.isSome && (List.range (pgPorts p.image)).any fun e => decide (portHandle p.image e = h.toNat)) ||
      s.handleBusy t h.toNat)
    if t.region.isSome then s.raise t i 0x04 v
    else if busy then s.raise t i 0x04 v
    else if v.toNat % 32 ≠ 0 then s.raise t i 0x03 v
    else
      match s.loadGlobal t v.toNat 32 with
      | (s1, .error m) => s1.missed t i .read m
      | (s1, .ok bs) =>
        let w (k : Nat) : Word := word (field bs (8 * k) 8)
        let hd : Handle := { bound := true, d0 := w 0, d1 := w 1, d2 := w 2, d3 := w 3 }
        if !(descOk s1 t.tile hd) then s1.raise t i 0x06 v
        else if s1.blockBad t.tile hd then s1.ringFault t i hd
        else
          let l := word (s1.readNat (apertureBase t.tile + hd.lrcb + 8) 8)
          s1.advance (t.setHandle h.toNat { hd with l }) i

/-- The condition of `ring.wait` and `ring.room`, at issue and at each wake (R193). -/
def ringWaitCore (i : Instr) (h n : Nat) (acq : Bool) (s : State) (t : Thread) : State :=
  match s.avail? t.tile (t.handle h) with
  | none => s.ringFault t i (t.handle h)
  | some av => if n ≤ av then s.advance (if acq then t.acquire s else t) i else s.waitAt t i

/-- `ring.wait` (R193). -/
def execRingWait (h a : BitVec 5) (s : State) : Out :=
  ringIssue (.ringWait h a) s fun s t =>
    let n := (t.reg a.toNat).toNat
    match ringCheck (t.handle h.toNat) (some 0) false n (t.handle h.toNat).depth with
    | some c => s.raiseFree t (.ringWait h a) c
    | none => ringWaitCore (.ringWait h a) h.toNat n true s t

/-- `ring.room` (R193). -/
def execRingRoom (h a : BitVec 5) (s : State) : Out :=
  ringIssue (.ringRoom h a) s fun s t =>
    let n := (t.reg a.toNat).toNat
    match ringCheck (t.handle h.toNat) (some 1) false n (t.handle h.toNat).depth with
    | some c => s.raiseFree t (.ringRoom h a) c
    | none => ringWaitCore (.ringRoom h a) h.toNat n false s t

/-- Whether a physical address lies in slots Head to Head + n − 1 (R124, R194). -/
def Handle.inSlots (h : Handle) (tile n pa : Nat) : Bool :=
  (List.range n).any fun k =>
    let b := h.slotPa tile (h.l.toNat + h.p + k)
    decide (b ≤ pa ∧ pa < b + h.slotB)

/-- The ring a handle of a template thread stands on, and its end (R224): 0 consumer, 1 producer. -/
def Inst.ringOf (i : Inst) (actor h : Nat) : Option (Nat × Ring × Nat) :=
  let v := (i.actors.getD actor {}).hmap.getD h 0xFFFF
  if v = 0xFFFF then none else (i.rings[v % 4096]?).map fun r => (v % 4096, r, v / 4096 % 2)

/-- Slots an aligned actor or worker takes on a back edge before the cut's marker are copied into the cut's
record, payload and trailer (R252). -/
def State.recordTaken (s : State) (t : Thread) (hn n : Nat) : State :=
  match s.inst? t.part t.inst with
  | none => s
  | some i =>
    match i.cut, i.ringOf t.actor hn with
    | some c, some (_, r, 0) =>
      let aligned := if t.worker then t.aligned && decide (t.ordinal = t.actor) else (i.actors.getD t.actor {}).aligned
      if r.back && aligned && !(c.backTaken.contains (t.actor, hn)) then
        let h := t.handle hn
        let at_ (k : Nat) : Nat := h.l.toNat + h.p + k
        let new := (List.range n).filter fun k => c.slots.all fun e => ¬ (e.1 = t.actor ∧ e.2.1 = hn ∧ e.2.2.1 = at_ k)
        let copies := new.map fun k => (t.actor, hn, at_ k, s.readBytes (h.slotPa t.tile (at_ k)) h.slotB)
        (s.charge (s.islandOf t.tile) i.acct 0x22 (new.length * h.slot64)).setInst
          { i with cut := some { c with slots := c.slots ++ copies } }
      else s
    | _, _ => s

/-- The effect of `ring.adv` and `ring.post` (R194): deferred inside a region, applied outside. -/
def takeSlots (i : Instr) (hn : Nat) (post : Bool) (n : Nat) (s : State) (t : Thread) : State :=
  let h := t.handle hn
  match s.availTo? t.tile h with
  | none => s.ringFault t i h
  | some av =>
    if n > av then s.raise t i 0x06 (word n)
    else
      match t.region with
      | some r =>
        if !(s.takeOk t hn n) then s.takeExcess t i hn n
        else
          let t1 := t.setHandle hn { h with p := h.p + n }
          (s.recordTaken t hn n).advance ({ t1 with region := some { r with deferred := r.deferred ++ [Deferred.take hn n] } }.countTaken hn n) i
      | none =>
        let sel (b : BufByte) : Bool := post && h.inSlots t.tile n b.pa
        let counters := h.applyCells t.tile n
        let s1 := (((s.recordTaken t hn n).chargeBuffered t (t.buf.filter sel)).chargeCells (s.islandOf t.tile) t.bill t.tile
          counters).publish (bufCells (t.buf.filter sel) ++ counters)
        s1.advance ({ t with buf := t.buf.filter (!sel ·) }.setHandle hn { h with l := h.l + word n }) i

/-- `ring.adv` (R194). -/
def execRingAdv (h a : BitVec 5) (s : State) : Out :=
  ringIssue (.ringAdv h a) s fun s t =>
    let n := (t.reg a.toNat).toNat
    match ringCheck (t.handle h.toNat) (some 0) false n ((t.handle h.toNat).depth - 1) with
    | some c => s.raiseFree t (.ringAdv h a) c
    | none => takeSlots (.ringAdv h a) h.toNat false n s t

/-- `ring.post` (R194). -/
def execRingPost (h a : BitVec 5) (s : State) : Out :=
  ringIssue (.ringPost h a) s fun s t =>
    let n := (t.reg a.toNat).toNat
    match ringCheck (t.handle h.toNat) (some 1) true n ((t.handle h.toNat).depth - 1) with
    | some c => s.raiseFree t (.ringPost h a) c
    | none => takeSlots (.ringPost h a) h.toNat true n s t

/-- `ring.slot` (R195). -/
def execRingSlot (d h b : BitVec 5) (s : State) : Out :=
  ringIssue (.ringSlot d h b) s fun s t =>
    let hd := t.handle h.toNat
    let n := (t.reg b.toNat).toNat
    match ringCheck hd none true n (hd.depth - 1) with
    | some c => s.raiseFree t (.ringSlot d h b) c
    | none =>
      let off := hd.base + (hd.head + n) % hd.depth * hd.slotB
      if hd.role = 1 ∧ hd.peerKind = 0 then
        if hd.pva = 0 then s.raiseFree t (.ringSlot d h b) 0x04 else s.result t (.ringSlot d h b) d (word (hd.pva + off))
      else s.result t (.ringSlot d h b) d (word off)

/-- The word of `ring.stat` (R196). -/
def ringStatus (s : State) (t : Thread) (hn : Nat) : Word :=
  let h := t.handle hn
  if !h.bound then 0
  else
    let av := s.avail? t.tile h
    let port := (s.pagesOf t).any fun p => p.region.isSome &&
      (List.range (pgPorts p.image)).any fun e => decide (portHandle p.image e = hn)
    word (av.getD 0 % 65536 + h.p % 65536 * 2 ^ 16 + h.head * 2 ^ 32 + 2 ^ 48 + h.role * 2 ^ 49 +
      (if port then 2 ^ 50 else 0) + (if h.nrep ≠ 0 then 2 ^ 51 else 0) + (if av.isNone then 2 ^ 52 else 0))

/-- `ring.stat` never traps (R196); a control block that cannot be read is recorded (R149) and reads as counters out of range. -/
def execRingStat (d h : BitVec 5) (s : State) : Out :=
  issue (.ringStat d h) 0 s fun s t =>
    let hd := t.handle h.toNat
    let s1 := if hd.bound && s.blockBad t.tile hd then s.memUe (apertureBase t.tile + hd.lrcb) 0 else s
    (s1.chargeThread t 0x20 1).result t (.ringStat d h) d (ringStatus s t h.toNat)

end Sys2Proof.Machine
end

