-- ==== Sys2Proof/Machine/Fetch.lean ====
section
/-! DEFINITION. What a turn does before an instruction's own effect: the core's choice (R85), fetch
(R90), breakpoints (R390), and the turns that are no instruction (time, physical faults). -/

namespace Sys2Proof.Machine

/-- Whether a thread's next instruction could issue (R85): it is Ready, and no event of it waits for a replay (R403). -/
def State.issuable (s : State) (t : Thread) : Bool := decide (t.state = .ready) && !(s.heldBack t)

/-- The core's choice among the Ready threads of a tile whose next instruction could issue (R85). -/
def State.choose (s : State) (tile : Nat) : Option Nat :=
  let ready (k : Nat) : Option Thread := (s.thread? (4 * tile + k)).filter s.issuable
  let aged := (List.range 4).find? fun k => (ready k).any fun t => decide (t.waitCount ≥ 1024)
  match aged with
  | some k => some k
  | none =>
    let cyc (p : Nat) : Option Nat :=
      let start := (s.tile tile).lastIssue.toArray.getD p 3 + 1
      ((List.range 4).map fun k => (start + k) % 4).find? fun k => (ready k).any fun t => decide (t.prio = p)
    ([3, 2, 1, 0].filterMap cyc).head?

/-- The chosen thread issues: it is the most recent of its priority, and the wait count of every other
Ready thread of the tile that could issue rises (R85). -/
def State.chosen (s : State) (tile k : Nat) : State :=
  let p := match s.thread? (4 * tile + k) with | some t => t.prio | none => 0
  let tl := s.tile tile
  let s1 := s.setTile tile { tl with lastIssue := tl.lastIssue.setIfInBounds p k }
  { s1 with
    cur := 4 * tile + k
    threads := s1.threads.map fun e =>
      if e.2.tile = tile ∧ e.2.num ≠ 4 * tile + k ∧ s.issuable e.2 then (e.1, { e.2 with waitCount := e.2.waitCount + 1 }) else e }

/-- Where the chosen thread's event had to wait for a replay, the thread has not issued (R85, R403): the core's counts stand
as they did. -/
def State.unchosen (s before : State) (tile : Nat) : State :=
  let s1 := s.setTile tile { s.tile tile with lastIssue := (before.tile tile).lastIssue }
  { s1 with threads := s1.threads.map fun e =>
      if e.2.tile = tile then (e.1, { e.2 with waitCount := ((before.thread? e.1).map Thread.waitCount).getD e.2.waitCount }) else e }

/-- A physical line as a thread's fetch snapshot holds it, without the thread's own stores (R90). -/
def State.codeAt (s : State) (t : Thread) (pa : Nat) : List Byte := (List.range 64).map fun k => s.readAt t.fetchSnap (pa + k)

/-- Whether a line of the instruction cache serves a fetch (R441): the thread's partition may execute it at the thread's
level, and it holds what the thread's fetch snapshot holds (R90). -/
def State.codeHit (s : State) (t : Thread) (pc : Word) (l : CodeLine) : Bool :=
  decide (l.tile = t.tile ∧ l.part = t.part ∧ l.line = pc.toNat / 64 ∧ (l.usr = true ∨ t.level ≠ 0)) && decide (l.data = s.codeAt t l.pa)

/-- A tile's instruction cache takes a line; a full one gives up another first, and an older line of the address goes
(R10, R441, log 9). -/
def State.fillLine (s : State) (l : CodeLine) : State :=
  let old := s.icache.filter fun x => decide (¬ (x.tile = l.tile ∧ x.part = l.part ∧ x.line = l.line ∧ x.usr = l.usr))
  let mine := old.filter fun x => decide (x.tile = l.tile)
  let kept := if mine.length < 512 then old
    else match mine[Config.victim s.steps l.line % mine.length]? with | some v => old.erase v | none => old
  { s with icache := l :: kept }

/-- The word in a line of code at a program counter. -/
def wordIn (line : List Byte) (pc : Word) : Half := BitVec.ofNat 32 (leNat ((line.drop (pc.toNat % 64)).take 4))

/-- The word at a program counter through the instruction cache (R441): a hit charges nothing; a miss translates the
line's address afresh and fills the line, charged to the thread's account. -/
def State.fetchWord (s : State) (t : Thread) (pc : Word) : State × Except Miss Half :=
  match s.icache.find? (s.codeHit t pc) with
  | some l => (s, .ok (wordIn l.data pc))
  | none =>
    let va := pc.toNat / 64 * 64
    let island := s.islandOf t.tile
    let s0 := if va / 2 ^ 56 ≠ 0 then s else s.chargeLookup island t.bill (dieOf t.tile) t.part va
    match s0.translate (dieOf t.tile) t.part t.level false .fetch va 64 with
    | (s1, .error m) => (s1, .error m)
    | (s1, .ok pa) =>
      let usr := match (s1.lookup (dieOf t.tile) t.part va).2 with | .ok (pte, _) => bit pte 5 | .error _ => false
      let line := s1.codeAt t pa
      let s2 := (s1.charge island t.bill 0x07 1).chargeMove island t.bill t.tile pa 64 false
      (s2.fillLine { tile := t.tile, part := t.part, line := pc.toNat / 64, pa, usr, data := line }, .ok (wordIn line pc))

/-- A fetch fault (R90, R146, R441). -/
def State.fetchMissed (s : State) (t : Thread) (pc : Word) (m : Miss) : State :=
  let c : Nat × Nat := match m with | .absent va => (0x22, va) | .cause c v => (c, v)
  if t.region.isSome ∧ (c.1 = 0x22 ∨ c.1 = 0x90) then
    s.abortWithRecord t c.1 2 pc (t.nameAt pc t.seq) []
  else s.takeTrap t c.1 pc pc t.seq t.pc

/-- The lowest breakpoint of the tile that matches the instruction a thread is about to issue (R390). -/
def State.breakpoint? (s : State) (t : Thread) (seq : Half) : Option Nat :=
  let tl := s.tile t.tile
  if t.afterTret then none
  else (List.range 4).find? fun n =>
    let b := tl.brk.toArray.getD n 0
    bit b.toNat 0 && bit b.toNat (2 + t.index) && decide (wbits b 8 56 = wbits t.pc 0 56) &&
      (!(bit b.toNat 1) || decide (wbits (tl.brkSeq.toArray.getD n 0) 0 32 = seq.toNat))

/-- BREAK for a matched breakpoint: the instruction has not issued (R390). -/
def State.breakAt (s : State) (t : Thread) (n : Nat) (seq : Half) : State :=
  s.takeTrap t 0x09 (word (0x40 + n)) t.pc seq t.pc

/-- What the fetch of an agent's next instruction gives: one to run, one that a core's chosen thread issues, with the state
before the choice counted, or a state that is the whole of the turn. -/
inductive Fetched where
  | run (i : Instr) (s : State)
  | issue (i : Instr) (before s : State)
  | done (s : State)

/-- The sequence number in the name of a word that is no instruction: an engine command's major names the number it would
take (R23, R37). -/
def wordSeq (w : Half) (t : Thread) : Half :=
  if 0x28 ≤ w.toNat / 67108864 ∧ w.toNat / 67108864 ≤ 0x39 then t.seq + 1 else t.seq

/-- ILL for a word that is no instruction (R29 steps 1 to 4). -/
def State.illegal (s : State) (t : Thread) (w : Half) : State :=
  let t1 := { t with afterTret := false, waitCount := 0 }
  ((s.chargeThread t 0x00 1).setThread t1).takeTrap t1 0x01 (word w.toNat) t.pc (wordSeq w t) t.pc

/-- The words of a thread's next instruction, with 0 for the extension of one that has none; or the address of the word whose
fetch fails (R26, R90). -/
def State.fetchPair (s : State) (t : Thread) : State × Except (Word × Miss) (Half × Half) :=
  match s.fetchWord t t.pc with
  | (s1, .error m) => (s1, .error (t.pc, m))
  | (s1, .ok w) =>
    match (if needsExtension w then s1.fetchWord t (t.pc + 4) else (s1, .ok 0)) with
    | (s2, .error m) => (s2, .error (t.pc + 4, m))
    | (s2, .ok x) => (s2, .ok (w, x))

/-- The sequence number in the name of the instruction that two words are, before it has issued (R23). -/
def pairSeq (w x : Half) (t : Thread) : Half :=
  match decodeControl w x with
  | .ok i => seqOf i t
  | .error _ => wordSeq w t

/-- The next instruction of the thread of a tile that its core has chosen: a pending trap first (R359), then fetch,
decode and breakpoints. The core's own count of issues moves where the instruction issues, an ill-formed one
included (R29, R85). -/
def State.fetch (s : State) (tile k : Nat) (t0 : Thread) : Fetched :=
  if t0.pending ≠ [] ∧ t0.hnd = false then .done (s.deliver t0)
  else
    let t := s.begin_ t0
    match s.fetchPair t with
    | (s1, .error (pc, m)) => .done (s1.fetchMissed t pc m)
    | (s1, .ok (w, x)) =>
      match s1.breakpoint? t (pairSeq w x t) with
      | some n => .done (s1.breakAt t n (pairSeq w x t))
      | none =>
        match decodeControl w x with
        | .error _ => .done ((s1.chosen tile k).illegal t w)
        | .ok i => .issue i s1 (s1.chosen tile k)

/-- The turn of a tile's core, up to the instruction it issues (R85). -/
def State.coreTurn (s : State) (tile : Nat) : Fetched :=
  match s.choose tile with
  | none => .done s
  | some k =>
    match s.thread? (4 * tile + k) with
    | none => .done s
    | some t => s.fetch tile k t

/-- The turn of an element: the operation of its slot on its resident page (R157). -/
def State.elemTurn (s : State) (page slot : Nat) : Fetched :=
  match s.page? page with
  | none => .done s
  | some p =>
    if p.region.isNone then .done s
    else
      match decodeElem (BitVec.ofNat 32 (elemWord p.image slot)) with
      | .error _ => .done s
      | .ok i => .run i { s with curPage := page, curSlot := slot }

/-- The cycles, at 3.3 GHz (R10), in `ns` of elapsed time from a time on. -/
def cyclesIn (from_ ns : Nat) : Nat := (from_ + ns) * 33 / 10 - from_ * 33 / 10

/-- Some cycles of a resident page's phase pass (R395, log 113). Up to the first token or write that leaves it they are LOAD
cycles, while nothing has moved, and then FILL; from then on a cycle in which it fired while an input port or an `agl` run had
a token ready is STEADY, any other in which it fired or wrote DRAIN, and the rest are of no class. What the spec leaves open of the split is free. -/
def State.phaseCycles (c : Nat) (s : State) (p : Page) : State :=
  match p.region with
  | none => s
  | some r =>
    let x := (Config.freeWord s.fresh).toNat
    let y := (Config.freeWord (s.fresh + 1)).toNat
    let most := min c p.phase.ready
    let load := if p.phase.moved then 0 else x % (c + 1)
    let fill := if p.phase.left then 0 else c - load
    let steady := if p.phase.left ∧ most > 0 then 1 + x % most else 0
    let rest := min (c - steady) (p.phase.fires - p.phase.ready)
    let drain := if !p.phase.left ∨ rest = 0 then 0 else if p.phase.ready = 0 then 1 + y % rest else y % (rest + 1)
    let ph := p.phase
    let s1 := s.setPage { p with phase := { ph with
      load := ph.load + load, fill := ph.fill + fill, steady := ph.steady + steady, drain := ph.drain + drain, fires := 0, ready := 0 } }
    { s1.setTile r ((s1.tile r).addPhase load fill steady drain c) with fresh := s1.fresh + 2 }

/-- A cycle or more has passed: each tile's trace unit has room again (R386), and each resident page's phase counts it. -/
def State.cyclesPass (s : State) (c : Nat) : State :=
  if c = 0 then s
  else
    let s1 : State := { s with tiles := s.tiles.map fun (e : Nat × Tile) => (e.1, { e.2 with trcRecent := 0 }) }
    (s1.pages.map Prod.snd).foldl (State.phaseCycles c) s1

/-- Time passes (R383, R384): the elapsed-time counter by `ns`, device time by as much corrected by
SLEW; the watchdogs of the threads that are not Stopped run down (R314). -/
def State.pass (s0 : State) (ns : Nat) : State :=
  let s := s0.cyclesPass (cyclesIn s0.dev.elapsed ns)
  let d := s.dev
  let slew := signed 32 d.slew.toNat
  let total : Int := (d.slewRest : Int) + slew * ns
  let gain : Int := (ns : Int) + total / 1000000000
  { s with
    threads := s.threads.map fun e =>
      if e.2.state = .stopped then e
      else (e.1, { e.2 with expects := e.2.expects.map fun x => { x with watchdog := x.watchdog - ns } })
    dev := { d with
      elapsed := (d.elapsed + ns) % 2 ^ 64
      powered := if d.mainPower then d.powered + ns else d.powered
      time := (d.time + gain.toNat) % 2 ^ 64
      slewRest := (total % 1000000000).toNat } }

/-- A physical fault stands in a block from now on (R149, log 18). -/
def State.memFault (s : State) (pa : Nat) : State := { s with badBlocks := pa / 64 :: s.badBlocks }

/-- The owner of a unit that counts corrected errors: units 0 to 511 are the pseudo-channels, which no one partition owns;
512 + 4 × tile + store are the tile stores (R378). -/
def State.unitOwner (s : State) (unit : Nat) : Option Nat := if unit < 512 then none else (s.tile ((unit - 512) / 4)).owner

/-- A tile store has raised MEM_CE: the third time within 24 h its tile is due to be retired (R410). -/
def State.storeCorrected (s : State) (unit : Nat) : State :=
  let times := s.dev.elapsed :: (tabGet [] s.dev.corrected unit).filter fun at_ => decide (s.dev.elapsed < at_ + 24 * 3600000000000)
  let tile := (unit - 512) / 4
  let due := decide (times.length ≥ 3 ∧ tile < 192) && (s.tile tile).present && !(s.dev.retireDue.contains tile)
  { s with dev := { s.dev with
      corrected := tabSet s.dev.corrected unit times
      retireDue := if due then s.dev.retireDue ++ [tile] else s.dev.retireDue } }

/-- A corrected soft error: the sixteenth within 1 s in one unit raises MEM_CE (R378). -/
def State.softFault (s : State) (unit : Nat) : State :=
  let recent := (s.softErrors.filter fun e => decide (e.1 = unit ∧ s.dev.elapsed < e.2 + 1000000000)).length + 1
  let s1 := { s with softErrors := (unit, s.dev.elapsed) :: s.softErrors }
  if recent = 16 then
    let s2 := { s1 with fresh := s1.fresh + 1 }.errorRecord (s1.unitOwner unit) 0x91 (Config.freeWord s1.fresh)
    if unit < 512 then s2 else s2.storeCorrected unit
  else s1

/-- A TLB slice replaces a cached translation (R143, log 9). -/
def State.tlbReplace (s : State) (slice part va : Nat) : State :=
  { s with tlb := s.tlb.filter fun e => ¬ (e.slice = slice ∧ e.part = part ∧ e.va = va) }

end Sys2Proof.Machine
end

