-- ==== Sys2Proof/Machine/Newt.lean ====
section
/-! DEFINITION. Newt: mapped queues, their publications, host-fed and ingest records (R324, R325, R328 to
R331, R333). The queue instructions are in Queues. -/

namespace Sys2Proof.Machine

/-- The number of records of a queue's array. -/
def NewtQueue.size (q : NewtQueue) : Nat := 2 ^ q.lsize

def State.queue? (s : State) (part q : Nat) : Option NewtQueue := s.queues.find? fun x => decide (x.part = part ∧ x.q = q)

/-- The state with a mapped queue changed. -/
def State.setQueue (s : State) (q : NewtQueue) : State :=
  { s with queues := s.queues.map fun x => if x.part = q.part ∧ x.q = q.q then q else x }

/-- The Newt that serves a queue, by die, its island, and the address of the descriptor (R324, R417). -/
def State.newtDie (s : State) (part q : Nat) : Nat := ((s.part part).qFirst + q) % 2
def newtIsland (die : Nat) : Nat := if die = 0 then 212 else 228
def State.descVa (s : State) (part q : Nat) : Nat := wbits (s.part part).qTable 6 50 * 64 + 64 * q

/-- The account that Newt's accesses to a queue carry (R22, R333; DESIGN CHOICE, log 133): the issuer's in a thread's
instruction, else the owner's of a mapped queue. -/
def State.newtAcct (s : State) (part q : Nat) : Nat :=
  match s.pubBy with
  | some w => ((s.threads.find? fun e => decide ((e.2.part, e.2.inst, e.2.ordinal) = w)).map fun e => e.2.bill).getD 64
  | none => ((s.queue? part q).map NewtQueue.owner).getD 64

/-- An access by Newt, with its charges (R335): a failed translation is PROT (R324). -/
def State.newtAddr (s : State) (part q : Nat) (acc : Access) (va n : Nat) : State × Except (Nat × Nat) Nat :=
  let die := s.newtDie part q
  let acct := s.newtAcct part q
  let s0 := if va / 2 ^ 56 ≠ 0 then s else s.chargeLookup (newtIsland die) acct die part va
  match s0.translate die part 1 false acc va n with
  | (s1, .ok pa) => (s1.chargeFrom (newtIsland die) acct die none pa n false, .ok pa)
  | (s1, .error (.cause 0x90 v)) => (s1, .error (0x90, v))
  | (s1, .error _) => (s1, .error (0x21, va))

/-- A failure of Newt that no thread waits for is an error record (R324); an uncorrectable error has its record already, with
the physical address (R354). -/
def State.newtError (s : State) (part : Nat) (e : Nat × Nat) : State :=
  if e.1 = 0x90 then s.flushRecords part (s.part part).backlog.length else s.errorRecord (some part) e.1 (word e.2)

/-- A charge to the account that owns a queue (R333). -/
def State.chargeOwner (s : State) (q : NewtQueue) : State :=
  s.charge (newtIsland (s.newtDie q.part q.q)) q.owner 0x3A 1

/-! ### Mapping (R325) -/

/-- The queue that a descriptor describes. The positions of an ingest queue that hold published,
unclaimed records are closed (R331). -/
def queueOf (part q : Nat) (bs : List Byte) (stamp : Nat) : NewtQueue :=
  let w1 := field bs 8 8
  let head := field bs 16 8
  let tail := field bs 24 8
  let size := 2 ^ bits w1 0 5
  let next := field bs 56 8
  { part, q, ring := bits (field bs 0 8) 0 56, lsize := bits w1 0 5, mode := bits w1 5 2, host := bit w1 7
    prio := bits w1 8 2, pend := bit w1 10, owner := bits w1 11 7, head, tail, period := field bs 32 4
    slack := field bs 36 4, t0 := field bs 40 8, late := field bs 48 4, nulls := field bs 52 4, next
    lastUsed := stamp
    closed := if bits w1 5 2 = 2 then (List.range (min (tail - head) size)).map fun j => (next + size - 1 - j) % size else [] }

/-- A reserved bit or value of a descriptor (R325). -/
def queueBad (bs : List Byte) : Bool :=
  let w0 := field bs 0 8
  let w1 := field bs 8 8
  decide (w0 / 2 ^ 56 ≠ 0 ∨ w0 % 64 ≠ 0 ∨ w1 / 2 ^ 19 ≠ 0 ∨ bits w1 0 5 = 0 ∨ bits w1 0 5 > 16 ∨ bits w1 5 2 = 3 ∨
    bits w1 11 7 > 64 ∨ (bits w1 5 2 = 2 ∧ bit w1 7 = false))

/-- The write-back of a mapped queue, one publication (R325); `halt` sets HALTED. A descriptor that Newt cannot write
gives a cause with its value (R324). -/
def State.writeBack (s : State) (q : NewtQueue) (halt : Bool) : State × Option (Nat × Nat) :=
  match s.newtAddr q.part q.q .write (s.descVa q.part q.q) 64 with
  | (s1, .error e) => (s1, some e)
  | (s1, .ok pa) =>
    let w1 := s1.readNat (pa + 8) 8
    let w1' := w1 - (if bit w1 10 then 2 ^ 10 else 0) - (if bit w1 18 then 2 ^ 18 else 0) +
      (if q.pend then 2 ^ 10 else 0) + (if halt || bit w1 18 then 2 ^ 18 else 0)
    (s1.publish (cellsAt (pa + 8) (leBytes 8 w1') ++ cellsAt (pa + 16) (leBytes 8 q.head ++ leBytes 8 q.tail) ++
      (if q.mode = 2 then cellsAt (pa + 48) (leBytes 4 q.late ++ leBytes 4 q.nulls) else []) ++
      cellsAt (pa + 56) (leBytes 8 q.next)), none)

/-- A queue leaves Newt. -/
def State.unmap (s : State) (q : NewtQueue) : State :=
  { s with queues := s.queues.filter fun x => ¬ (x.part = q.part ∧ x.q = q.q) }

/-- The virtual address of the array position of a record. -/
def NewtQueue.pos (q : NewtQueue) (k : Nat) : Nat := q.ring + 64 * (k % q.size)

/-- The sequence value that stands in memory at the array position of slot `k` (R331). -/
def State.slotWord (s : State) (q : NewtQueue) (k : Nat) : Option Nat :=
  match (s.newtAddr q.part q.q .read (q.pos k) 64).2 with
  | .ok pa => some (s.readNat (pa + 56) 4)
  | .error _ => none

/-- Whether the sequence word of slot `k` waits in memory (R331). -/
def State.slotWaits (s : State) (q : NewtQueue) (k : Nat) : Bool :=
  !(q.closed.contains (k % q.size)) && decide (s.slotWord q k = some ((k + 1) % 2 ^ 32))

/-- A queue as it is mapped: the sequence words of an ingest queue's later slots that wait in memory have arrived
(R331). -/
def State.withWaiting (s : State) (q : NewtQueue) : NewtQueue :=
  if q.mode ≠ 2 then q
  else { q with arrived := ((List.range (q.size - 1)).filter fun j => s.slotWaits q (q.next + 1 + j)).map fun j => (q.next + 1 + j, s.dev.time) }

/-- Whether a queue may be unmapped (R325). -/
def NewtQueue.idle (q : NewtQueue) : Bool := q.waiters.isEmpty && decide (q.mode ≠ 2) && q.requeue.isEmpty

/-- The least recently used of some queues. -/
def oldest : List NewtQueue → Option NewtQueue
  | [] => none
  | q :: r => match oldest r with
    | none => some q
    | some p => if p.lastUsed < q.lastUsed then some p else some q

/-- What naming a queue gives: the mapped queue, a wait for a slot, or a cause with its value where the
spec states one. -/
inductive Mapped where
  | ok (s : State) (q : NewtQueue)
  | wait (s : State)
  | bad (s : State) (cause : Nat) (value : Option Nat)

/-- The queue a partition number names, mapped at its first use; each Newt caches 1,024 queues, and
the least recently used of those that may be unmapped gives way (R324, R325). A queue that this step has named has a
claim or a publish in flight. -/
def State.mapQueue (s : State) (part qn : Nat) : Mapped :=
  match s.queue? part qn with
  | some q => .ok (s.setQueue { q with lastUsed := s.steps }) { q with lastUsed := s.steps }
  | none =>
    if qn ≥ (s.part part).qCount then .bad s 0x21 none
    else
      let va := s.descVa part qn
      match s.newtAddr part qn .read va 64 with
      | (s1, .error e) => .bad s1 e.1 (some e.2)
      | (s1, .ok pa) =>
        let bs := s1.readBytes pa 64
        if bit (field bs 8 8) 18 then .bad s1 0x04 none
        else if queueBad bs then .bad s1 0x06 none
        else
          let mine := s1.queues.filter fun x => decide (s1.newtDie x.part x.q = s1.newtDie part qn)
          let q := s1.withWaiting (queueOf part qn bs s1.steps)
          let put (s : State) : Mapped := .ok { s with queues := q :: s.queues } q
          if mine.length < 1024 then put s1
          else
            match oldest (mine.filter fun x => x.idle && decide (x.lastUsed ≠ s1.steps)) with
            | none => .wait s1
            | some v => match s1.writeBack v false with
              | (s2, some e) => .bad s2 e.1 (some e.2)
              | (s2, none) => put (s2.unmap v)

/-! ### Publication (R328, R329) -/

/-- A thread Waiting at `q.wait` has completed it (R329). -/
def State.wakeWaiter (s : State) (n : Nat) : State :=
  match s.thread? n with
  | none => s
  | some t =>
    match t.wait with
    | some w => (match w.instr with
      | .qWait _ => s.setThread { t with state := .ready, wait := none, pc := t.pc + 4 }
      | _ => s)
    | none => s

/-- A publication makes the oldest waiter Ready (R329). -/
def State.published (s : State) (q : NewtQueue) : State :=
  match q.waiters with
  | [] => s.setQueue q
  | n :: rest => (s.setQueue { q with waiters := rest }).wakeWaiter n

/-- `q.note` on a queue: every waiter Ready, or PEND (R329). -/
def State.notify (s : State) (q : NewtQueue) : State :=
  if q.waiters.isEmpty then s.setQueue { q with pend := true }
  else q.waiters.foldl State.wakeWaiter (s.setQueue { q with waiters := [] })

/-- A record is written at TAIL, with TAIL one publication; the log holds it (R328, R401). -/
def State.append (s : State) (q : NewtQueue) (recd : List Byte) (who : LogRec) : State × Option (Nat × Nat) :=
  match s.newtAddr q.part q.q .write (q.pos q.tail) 64 with
  | (s1, .error e) => (s1, some e)
  | (s1, .ok pa) =>
    let s2 := (s1.publish (cellsAt pa recd)).logEvent q.part { who with typ := 2, a := q.q, b := word q.tail }
    (s2.published { q with tail := q.tail + 1 }, none)

/-- Records requeued while the queue was full are published as room appears (R148). -/
def State.roomMoved (s : State) (part qn : Nat) : Nat → State
  | 0 => s
  | n + 1 =>
    match s.queue? part qn with
    | none => s
    | some q =>
      match q.requeue with
      | [] => s
      | r :: rest =>
        if q.tail - q.head ≥ q.size then s
        else
          let q1 := { q with requeue := rest }
          match (s.setQueue q1).append q1 r {typ := 2} with
          | (s1, none) => s1.roomMoved part qn n
          | (s1, some e) => (s1.newtError part e).roomMoved part qn n

/-- A request that names a queue waits until Newt has a slot for it (R325). -/
def State.awaitSlot (s : State) (h : HeldInput) : State := { s with held := s.held ++ [h] }

/-- An aborted task's record is republished at the tail of its queue (R148). -/
def State.requeueTask (s : State) (part qn : Nat) (recd : List Byte) : State :=
  match s.mapQueue part qn with
  | .wait s1 => s1.awaitSlot (.requeue part qn recd)
  | .bad s1 c v => s1.newtError part (c, v.getD qn)
  | .ok s1 q => (s1.setQueue { q with requeue := q.requeue ++ [recd] }).roomMoved part qn (q.requeue.length + 1)

/-- The cells of the records that a region's end publishes, in issue order, and their queues with TAIL
moved on (R328). -/
def State.deferCells (s : State) (t : Thread) : List (Nat × List Byte) → State × List (Nat × Byte)
  | [] => (s, [])
  | (qn, recd) :: r =>
    match s.queue? t.part qn with
    | none => s.deferCells t r
    | some q =>
      match s.newtAddr t.part qn .write (q.pos q.tail) 64 with
      | (s1, .error _) => s1.deferCells t r
      | (s1, .ok pa) =>
        let s2 := (s1.setQueue { q with tail := q.tail + 1 }).logThread t t.seq 2 qn (word q.tail)
        let (s3, cs) := s2.deferCells t r
        (s3, cellsAt pa recd ++ cs)

/-- The waiters that a region's publications make Ready (R329). -/
def State.deferDone (s : State) (part : Nat) : List (Nat × List Byte) → State
  | [] => s
  | (qn, _) :: r =>
    match s.queue? part qn with
    | none => s.deferDone part r
    | some q => (s.published q).deferDone part r

/-- Whether every queue that deferred publishes name has room for all their records, and a position that Newt can
write for each (R324, R328): true or false, or what naming it gives. -/
inductive Room where
  | yes (s : State)
  | no (s : State)
  | bad (s : State) (cause : Nat) (value : Option Nat)

def State.deferRoom (s : State) (part : Nat) (all : List (Nat × List Byte)) : List (Nat × List Byte) → Room
  | [] => .yes s
  | (qn, _) :: r =>
    match s.mapQueue part qn with
    | .bad s1 c v => .bad s1 c v
    | .wait s1 => .no s1
    | .ok s1 q =>
      let n := (all.filter fun e => decide (e.1 = qn)).length
      if q.tail - q.head + n > q.size ∨ q.requeue ≠ [] then .no s1
      else
        let later := (r.filter fun e => decide (e.1 = qn)).length
        match s1.newtAddr part qn .write (q.pos (q.tail + (n - 1 - later))) 64 with
        | (s2, .error e) => .bad s2 e.1 (some e.2)
        | (s2, .ok _) => s2.deferRoom part all r

/-! ### Host-fed queues and ingest (R330, R331) -/

/-- The deadline of slot NEXT (R331). -/
def NewtQueue.deadline (q : NewtQueue) : Nat := q.t0 + q.next * q.period + q.slack

/-- The slot NEXT is published: its position is closed, TAIL and NEXT move on (R331, R333, R401). -/
def State.slotDone (s : State) (q : NewtQueue) (cells : List (Nat × Byte)) (stamp : Nat) (null : Bool) : State :=
  let s1 := ((s.publish cells).chargeOwner q).logEvent q.part
    { typ := 4, a := q.q + (if null then 2 ^ 31 else 0), b := word stamp }
  s1.published { q with
    closed := (q.next % q.size) :: q.closed, tail := q.tail + 1, next := q.next + 1
    nulls := if null then (q.nulls + 1) % 2 ^ 32 else q.nulls
    arrived := q.arrived.filter fun e => decide (e.1 > q.next) }

/-- Newt's null record of a slot (R331). -/
def nullRecord (next deadline : Nat) : List Byte :=
  leBytes 8 (next % 2 ^ 32) ++ zeros 40 ++ leBytes 8 deadline ++ leBytes 8 (2 ^ 32)

/-- Newt publishes the null record of NEXT; its position must not hold an unclaimed record. -/
def State.nullSlot (s : State) (q : NewtQueue) : State :=
  match s.newtAddr q.part q.q .write (q.pos q.next) 64 with
  | (s1, .error e) => s1.newtError q.part e
  | (s1, .ok pa) => s1.slotDone q (cellsAt pa (nullRecord q.next q.deadline)) q.deadline true

/-- The host's record of NEXT is published with its STAMP (R331). -/
def State.hostSlot (s : State) (q : NewtQueue) (stamp : Nat) : State :=
  match s.newtAddr q.part q.q .write (q.pos q.next) 64 with
  | (s1, .error e) => s1.newtError q.part e
  | (s1, .ok pa) =>
    s1.slotDone q (cellsAt (pa + 48) (leBytes 8 stamp) ++ cellsAt (pa + 56) (leBytes 4 (q.next + 1))) stamp false

/-- Whether Newt can write the position of NEXT. -/
def State.slotWritable (s : State) (q : NewtQueue) : Bool :=
  match (s.newtAddr q.part q.q .write (q.pos q.next) 64).2 with
  | .ok _ => true
  | .error _ => false

/-- Whether the partition replays a log, so that live host and link input to it is held (R403). -/
def State.replaying (s : State) (part : Nat) : Bool := (s.part part).ckReplay && decide ((s.part part).replay ≠ [])

/-- Every slot of an ingest queue that is due at a device time is acted on, in order: an early sequence write that NEXT
has reached, then a deadline that the time has reached (R331, R384). A position that Newt cannot write ends it. -/
def State.ingestDueAt (s : State) (part qn time : Nat) : Nat → State
  | 0 => s
  | n + 1 =>
    match s.queue? part qn with
    | none => s
    | some q =>
      if q.mode ≠ 2 ∨ q.closed.contains (q.next % q.size) ∨ s.replaying part then s
      else
        match q.arrived.find? fun e => decide (e.1 = q.next ∧ e.2 < q.deadline) && s.slotWaits q q.next with
        | some e => if s.slotWritable q then (s.hostSlot q e.2).ingestDueAt part qn time n else s.hostSlot q e.2
        | none =>
          if time < q.deadline then s
          else if s.slotWritable q then (s.nullSlot q).ingestDueAt part qn time n
          else s.nullSlot q

/-- The same at the present device time. -/
def State.ingestDue (s : State) (part qn n : Nat) : State := s.ingestDueAt part qn s.dev.time n

/-- The sequence word of a slot above NEXT: it waits in memory, if its position is open (R331). -/
def State.ingestEarly (s : State) (q : NewtQueue) (k time : Nat) : State :=
  if q.closed.contains (k % q.size) then s
  else
    match s.newtAddr q.part q.q .write (q.pos k) 64 with
    | (s1, .error e) => s1.newtError q.part e
    | (s1, .ok pa) => (s1.publish (cellsAt (pa + 56) (leBytes 4 ((k + 1) % 2 ^ 32)))).setQueue { q with arrived := q.arrived ++ [(k, time)] }

/-- The host's sequence-word write for slot `k` of an ingest queue, which arrived at a device time (R331). -/
def State.ingest (s : State) (part qn k time : Nat) : State :=
  match s.mapQueue part qn with
  | .ok s1 q0 =>
    match (s1.ingestDueAt part qn time (2 * q0.size)).queue? part qn with
    | none => s1
    | some q =>
      let s2 := s1.ingestDueAt part qn time (2 * q0.size)
      if q.mode ≠ 2 then s2
      else if k < q.next then s2.setQueue { q with late := (q.late + 1) % 2 ^ 32 }
      else if k > q.next then s2.ingestEarly q k time
      else if q.closed.contains (q.next % q.size) then s2
      else (s2.hostSlot q time).ingestDueAt part qn time (2 * q.size)
  | .wait s1 => s1.awaitSlot (.ingest part qn k time)
  | .bad s1 c v =>
    -- A halted ingest queue counts the discarded write in LATE (R325).
    match s1.newtAddr part qn .write (s1.descVa part qn) 64 with
    | (s2, .ok pa) =>
      let w1 := s2.readNat (pa + 8) 8
      if bit w1 18 ∧ bits w1 5 2 = 2 then s2.publish (cellsAt (pa + 48) (leBytes 4 (s2.readNat (pa + 48) 4 + 1)))
      else s2.newtError part (c, v.getD qn)
    | (s2, _) => s2.newtError part (c, v.getD qn)

/-- Whether host and link input to a partition is held: until READY (R14), and while its log is replayed (R403). -/
def State.holds (s : State) (part : Nat) : Bool := !s.dev.ready || s.replaying part

/-- INGEST_ARRIVAL (R331): the host's sequence write for slot `k`. -/
def execIngestArrival (part q k : Nat) (s : State) : Out :=
  if s.holds part then .next { s with held := s.held ++ [.ingest part q k s.dev.time] } else .next (s.ingest part q k s.dev.time)

/-- INGEST_DEADLINE (R331): device time has reached the deadline of slot NEXT of a mapped queue. -/
def execIngestDeadline (part q : Nat) (s : State) : Out :=
  if s.replaying part then .next s else .next (s.ingestDue part q 1)

/-- The host's sequence-word write publishes the record at TAIL: word 7 [31:0], the record and TAIL together
(R330). A halted queue discards it, with an error record (R325). -/
def State.hostPublish (s : State) (part qn : Nat) : State :=
  match s.mapQueue part qn with
  | .ok s1 q =>
    if !q.host || decide (q.mode = 2) then s1
    else
      match s1.newtAddr part qn .write (q.pos q.tail) 64 with
      | (s2, .error e) => s2.newtError part e
      | (s2, .ok pa) =>
        let s3 := (s2.publish (cellsAt (pa + 56) (leBytes 4 (q.tail + 1)))).chargeOwner q
        let s4 := s3.logEvent part { typ := 2, a := qn, b := word q.tail }
        let s5 := (List.range 8).foldl (fun s k => s.logEvent part { typ := 12, b := word (s3.readNat (pa + 8 * k) 8) }) s4
        s5.published { q with tail := q.tail + 1 }
  | .wait s1 => s1.awaitSlot (.publication part qn)
  | .bad s1 c v => s1.newtError part (c, v.getD qn)

/-- HOST_PUBLICATION (R330). -/
def execHostPublication (part q : Nat) (s : State) : Out :=
  if s.holds part then .next { s with held := s.held ++ [.publication part q] } else .next (s.hostPublish part q)

/-- A notify from a VF window, which acts as `q.note` does (R329, R373, R374): ignored for a queue at or past COUNT, and
dropped by a halted one. -/
def State.notifyFn (s : State) (fn q : Nat) : State :=
  match (s.func fn).part with
  | none => s
  | some part =>
    if q ≥ (s.part part).qCount then s
    else
      match s.mapQueue part q with
      | .ok s1 mq => s1.notify mq
      | .wait s1 => s1.awaitSlot (.notify fn q)
      | .bad s1 _ _ => s1

/-- A notify that reaches a VF window, kept until READY (R14). -/
def State.notifyIn (s : State) (fn q : Nat) : State :=
  if s.dev.ready then s.notifyFn fn q else { s with held := s.held ++ [.notify fn q] }

/-- QUEUE_NOTIFY (R329, R374): the window holds a notify register for each of 4,096 queues. -/
def execQueueNotify (fn q : Nat) (s : State) : Out := .next (if q < 4096 then s.notifyIn fn q else s)

/-- QUEUE_NOTIFY_INDEXED (R374): [15:0] names the queue. -/
def execQueueNotifyIndexed (fn : Nat) (v : Word) (s : State) : Out := .next (s.notifyIn fn (wbits v 0 16))

/-! ### Q_SYNC (R324, R325) -/

/-- Whether a `Q_SYNC` waits: a publish is in flight on the queue (R325), a record of R148 that waits for room. -/
def State.syncWaits (s : State) (part qn : Nat) : Bool := (s.queue? part qn).any fun q => !q.requeue.isEmpty

/-- Writes a queue back and unmaps it where it may be; KEPT says that it stays mapped (R324, R325). HALT on a
queue that is not mapped sets HALTED in the descriptor alone. A queue whose descriptor cannot be written stays as it is
(R324). -/
def State.syncQueue (s : State) (part qn : Nat) (halt : Bool) : State :=
  let kept (s : State) (b : Bool) : State := s.setPart part { s.part part with qKept := b }
  match s.queue? part qn with
  | none =>
    if !halt then kept s false
    else
      match s.newtAddr part qn .write (s.descVa part qn) 64 with
      | (s1, .error _) => s1
      | (s1, .ok pa) =>
        let w1 := s1.readNat (pa + 8) 8
        kept (if bit w1 18 then s1 else s1.publish (cellsAt (pa + 8) (leBytes 8 (w1 + 2 ^ 18)))) false
  | some q =>
    if halt then
      match s.writeBack { q with waiters := [] } true with
      | (s1, some _) => s1
      | (s1, none) => kept ((q.waiters.foldl State.wakeWaiter s1).unmap q) false
    else
      match s.writeBack q false with
      | (s1, some _) => s1
      | (s1, none) => if q.idle then kept (s1.unmap q) false else kept s1 true

/-- The cause and value of a `Q_SYNC` whose descriptor Newt cannot write (R324). -/
def State.syncFault? (s : State) (part qn : Nat) (halt : Bool) : Option (Nat × Nat) :=
  if (s.queue? part qn).isNone ∧ halt = false then none
  else match (s.newtAddr part qn .write (s.descVa part qn) 64).2 with
    | .error e => some e
    | .ok _ => none

/-- Q_SYNC (R325): it acts once no claim or publish is in flight on the queue. -/
def execQSync (part q : Nat) (s : State) : Out :=
  .next (if q < (s.part part).qCount ∧ s.syncWaits part q = false then s.syncQueue part q false else s)

/-- Q_SYNC with HALT (R325). -/
def execQSyncHalt (part q : Nat) (s : State) : Out :=
  .next (if q < (s.part part).qCount ∧ s.syncWaits part q = false then s.syncQueue part q true else s)

end Sys2Proof.Machine
end

