-- ==== Sys2Proof/Machine/Contexts.lean ====
section
/-! DEFINITION. Thread contexts (R365 to R367): the image of a Stopped thread, its selection, its check and its
restore. -/

namespace Sys2Proof.Machine

/-- Word `k` of a thread's context image (R365). -/
def Thread.contextWord (t : Thread) (k : Nat) : Word :=
  if k = 0 then t.pc
  else if k < 32 then t.reg k
  else if k < 44 then
    [word ((t.preds ||| 1).toNat + t.seq.toNat * 2 ^ 32), t.sw, t.tsw, t.tpc, word t.tseq.toNat, t.cause, t.tval, t.rpc,
     t.spill, t.mxTcfg, t.skTcfg, word (t.actor % 2 ^ 16 + t.ordinal % 2 ^ 16 * 2 ^ 16 + t.inst % 2 ^ 32 * 2 ^ 32)].getD (k - 32) 0
  else if k < 60 then
    let x := t.expects.toArray.getD ((k - 44) / 4) {}
    if x.armed then [word (1 + x.remaining * 2 ^ 16), x.completion, word x.watchdog, 0].getD ((k - 44) % 4) 0 else 0
  else if k = 60 then word t.pending.length
  else if k < 64 then 0
  else if k < 128 then
    match t.pending[(k - 64) / 4]? with
    | none => 0
    | some p => [word p.cause, p.tpc, word p.tseq.toNat, p.tval].getD (k % 4) 0
  else if k < 224 then
    let h := t.handle ((k - 128) / 6)
    [h.d0, h.d1, h.d2, h.d3, h.l, word (h.p % 2 ^ 16 + if h.bound then 2 ^ 63 else 0)].getD ((k - 128) % 6) 0
  else 0

/-- A word of the saved image, with the writes of `TC_CTXDATA` (R366). -/
def Thread.savedWord (t : Thread) (k : Nat) : Word := (tabGet? t.ctxEdits k).getD (t.contextWord k)

/-- A handle of the saved image. -/
def Thread.savedHandle (t : Thread) (n : Nat) : Handle :=
  let w (j : Nat) : Word := t.savedWord (128 + 6 * n + j)
  { bound := bit (w 5).toNat 63, d0 := w 0, d1 := w 1, d2 := w 2, d3 := w 3, l := w 4, p := wbits (w 5) 0 16 }

/-- The level of the launcher of a thread's instance (R230). -/
def State.launchLevel (s : State) (t : Thread) : Nat :=
  match s.inst? t.part t.inst with | some i => i.level | none => t.maxLevel

/-- Whether a status word may stand in a restored context (R367): a thread in a handler is at level S by trap
entry (R353). -/
def State.statusOk (s : State) (t : Thread) (v : Word) : Bool :=
  decide (wbits v 12 52 = 0) && decide (wbits v 0 2 ≠ 3) &&
    (decide (wbits v 0 2 ≤ s.launchLevel t) || decide (wbits v 2 1 = 1 ∧ wbits v 0 2 = 1)) &&
    (s.part t.part).functions.contains (wbits v 5 7)

/-- Whether a word of the saved image passes the check of R367. -/
def State.contextOk (s : State) (t : Thread) (k : Nat) : Bool :=
  let w := t.savedWord k
  if k = 0 then decide (w.toNat % 4 = 0)
  else if k < 32 then true
  else if k < 44 then
    match k with
    | 32 => bit w.toNat 0 && decide (wbits w 8 24 = 0)
    | 33 => s.statusOk t w
    | 36 => decide (wbits w 32 32 = 0)
    | 37 => decide (wbits w 8 56 = 0)
    | 40 => decide (wbits w 54 10 = 0 ∧ wbits w 0 3 = 0 ∧ wbits w 18 3 = 0)
    | 41 => decide (wbits w 38 26 = 0)
    | 42 => decide (wbits w 38 26 = 0)
    | 43 => decide (w = t.contextWord 43)
    | _ => true
  else if k < 60 then
    match (k - 44) % 4 with
    | 0 => decide (wbits w 1 15 = 0)
    | 1 => decide (wbits w 21 11 = 0)
    | 2 => true
    | _ => decide (w = 0)
  else if k = 60 then decide (w.toNat ≤ 16)
  else if k < 64 then decide (w = 0)
  else if k < 128 then
    match k % 4 with
    | 0 => decide (wbits w 8 56 = 0)
    | 2 => decide (wbits w 32 32 = 0)
    | _ => true
  else if k < 224 then
    let j := (k - 128) % 6
    if j < 4 then
      !(t.savedHandle ((k - 128) / 6)).bound || (descChecks s t.tile (t.savedHandle ((k - 128) / 6))).all fun c => decide (c.1 ≠ j) || c.2
    else decide (j = 4 ∨ wbits w 16 47 = 0)
  else decide (w = 0)

/-- The first word of a saved image that fails, if any. -/
def State.contextBad? (s : State) (t : Thread) : Option Nat := (List.range 256).find? fun k => !(s.contextOk t k)

/-- The thread that an edited image describes; an unedited thread is itself. -/
def Thread.edited (t : Thread) : Thread :=
  if t.ctxEdits = [] then t
  else
    let w (k : Nat) : Word := t.savedWord k
    { t with
      pc := w 0
      regs := Vector.ofFn fun n => if n.val = 0 then 0 else w n.val
      preds := BitVec.ofNat 8 (w 32).toNat
      seq := BitVec.ofNat 32 (wbits (w 32) 32 32)
      sw := w 33, tsw := w 34, tpc := w 35, tseq := BitVec.ofNat 32 (w 36).toNat, cause := w 37, tval := w 38, rpc := w 39
      spill := w 40, mxTcfg := w 41, skTcfg := w 42
      expects := Vector.ofFn fun n =>
        let b := 44 + 4 * n.val
        let old := t.expects.toArray.getD n.val {}
        if bit (w b).toNat 0 then
          { old with armed := true, remaining := wbits (w b) 16 48, completion := w (b + 1), watchdog := (w (b + 2)).toNat }
        else {}
      pending := (List.range (w 60).toNat).map fun n =>
        let b := 64 + 4 * n
        ⟨(w b).toNat, w (b + 1), BitVec.ofNat 32 (w (b + 2)).toNat, w (b + 3)⟩
      handles := Vector.ofFn fun n => t.savedHandle n.val
      ctxEdits := [] }

/-- A thread takes another number; what names it follows: what it owes a record, its subscriptions, its accepted engine
commands, its macros, its expectations and its pages. A barrier generation that is open keeps the index under which it has the
thread, so that the thread's next arrival there is not that member's (DESIGN CHOICE, log 126: R111 and R367 name no index). -/
def State.renumber (s : State) (t : Thread) (n : Nat) : State :=
  let p := s.part t.part
  let f (k : Nat) : Nat := if k = t.num then n else k
  let s1 := s.setPart t.part { p with owed := p.owed.map fun o => (o.1, match o.2 with
    | .region k x => .region (f k) x
    | .thread k => .thread (f k)) }
  let own (q : List Cmd) : List Cmd := q.map fun c => if c.name.thread = t.num then { c with name := { c.name with thread := n } } else c
  let mac (m : Macro) : Macro := if m.owner = some (t.part, t.inst, t.num) then { m with owner := some (t.part, t.inst, n) } else m
  let tl := s1.tile t.tile
  let s2 := if t.tile < 192 then
      s1.setTile t.tile { tl with mxQ := own tl.mxQ, skQ := own tl.skQ, cpQ := own tl.cpQ, macro0 := mac tl.macro0, macro1 := mac tl.macro1 }
    else s1
  { s2 with
    threads := tabSet (tabErase s2.threads t.num) n { t with
      num := n, expects := t.expects.map fun e => if e.name.thread = t.num then { e with name := { e.name with thread := n } } else e }
    pages := s2.pages.map fun e =>
      if e.2.part = t.part ∧ e.2.inst = t.inst ∧ e.2.ordinal = t.ordinal then (e.1, { e.2 with name := { e.2.name with thread := n } }) else e
    subs := s2.subs.map fun (u : Sub) =>
      let u := if u.name.part = t.part ∧ u.thread = some t.num then { u with thread := some n, name := { u.name with thread := n } } else u
      { u with stoppers := u.stoppers.map fun k => if k.1.part = t.part ∧ k.1.thread = t.num then ({ k.1 with thread := n }, k.2) else k } }

/-- The slot that a restore gives a thread on its tile (R367 step 3, R229 step 3): the lowest that is Free once the thread
has given up its own. -/
def State.restoreSlot (s : State) (t : Thread) : Nat :=
  ((List.range 4).map (4 * t.tile + ·)).find? (fun n => decide (n = t.num) || (s.thread? n).isNone) |>.getD t.num

/-- A restore of a Stopped thread (R367, R148): a context that fails leaves it Stopped with a KIND 1 record; else
the record of its aborted task is requeued and it is Ready in a new phase, in the slot it takes. -/
def State.restoreThread (s : State) (t : Thread) : State :=
  match s.contextBad? t with
  | some k =>
    let (s1, id) := (s.traceTrap t 0x04 t.pc t.seq (word (8 * k))).addRecord t.part
      { cause := 0x04, kind := 1, value := word (8 * k), name := t.nameAt t.pc t.seq }
    let p := s1.part t.part
    (s1.setPart t.part { p with owed := (id, .thread t.num) :: p.owed }).setThread { t with recordId := id }
  | none =>
    let s1 := match t.task with | some (q, r) => s.requeueTask t.part q r | none => s
    let n := s1.restoreSlot t
    let t1 : Thread := { t.edited with state := .ready, wait := none, recordId := 0, task := none }.phaseStart s1
    if n = t.num then s1.setThread t1 else s1.renumber t1 n

/-! ### `TC_CTXSEL` and `TC_CTXDATA` (R366) -/

/-- The Stopped thread that a selection names, if any. -/
def State.selected (s : State) (t : Thread) : Option Thread :=
  (s.threads.find? fun e => decide (e.2.part = t.part ∧ e.2.inst = wbits t.ctxSel 0 32 ∧ e.2.ordinal = wbits t.ctxSel 32 16 ∧
    e.2.state = .stopped)).map Prod.snd

/-- OFF advances by one, modulo 256. -/
def Thread.ctxNext (t : Thread) : Thread :=
  { t with ctxSel := word (t.ctxSel.toNat % 2 ^ 48 + (wbits t.ctxSel 48 8 + 1) % 256 * 2 ^ 48) }

/-- A read of `TC_CTXDATA` by a thread: the value, and the state with OFF advanced. -/
def State.ctxRead (s : State) (t : Thread) : Word × State × Thread :=
  let v := match s.selected t with | some x => x.savedWord (wbits t.ctxSel 48 8) | none => 0
  (v, s.setThread t.ctxNext, t.ctxNext)

/-- A write of `TC_CTXDATA` by a thread. -/
def State.ctxWrite (s : State) (t : Thread) (v : Word) : State × Thread :=
  let s1 := match s.selected t with
    | some x => s.setThread { x with ctxEdits := tabSet x.ctxEdits (wbits t.ctxSel 48 8) v }
    | none => s
  (s1.setThread t.ctxNext, t.ctxNext)

/-- CTXDATA_READ (R366): by the given thread, which holds the selection. -/
def execCtxdataRead (thread : Nat) (s : State) : Out :=
  match s.thread? thread with
  | none => .next s
  | some t => .next (s.ctxRead t).2.1

/-- CTXDATA_WRITE (R366). -/
def execCtxdataWrite (thread : Nat) (v : Word) (s : State) : Out :=
  match s.thread? thread with
  | none => .next s
  | some t => .next (s.ctxWrite t v).1

end Sys2Proof.Machine
end

