-- ==== Sys2Proof/Machine/Numbers.lean ====
section
/-! DEFINITION. Number formats, exact values, rounding, saturation and conversion (R64 to R77). -/

namespace Sys2Proof.Machine

/-- An exact value: NaN, an infinity, or (−1)^neg × m × 2^e; a zero keeps its sign (R73). -/
inductive Ex where
  | nan
  | inf (neg : Bool)
  | fin (neg : Bool) (m : Nat) (e : Int)
  deriving DecidableEq, Repr

/-- Bits and elements of a format (R64): width in bits, 0 where it is not assigned. -/
def fmtBits (f : Nat) : Nat :=
  match f with
  | 1 | 3 | 16 => 32
  | 2 | 4 | 5 => 16
  | 8 | 9 | 10 | 11 => 8
  | 12 | 13 => 4
  | 14 => 2
  | _ => 0

/-- Elements of a format in a block (R64). -/
def fmtPerBlock (f : Nat) : Nat := if fmtBits f = 0 then 0 else 512 / fmtBits f

/-- An IEEE-shaped code with 8 exponent bits and `mb` mantissa bits (R65). -/
def decodeIeee (mb code : Nat) : Ex :=
  let neg := bit code (8 + mb)
  let ex := bits code mb 8
  let m := bits code 0 mb
  if ex = 255 then (if m = 0 then .inf neg else .nan)
  else if ex = 0 then .fin neg m (-126 - (mb : Int))
  else .fin neg (m + 2 ^ mb) ((ex : Int) - 127 - mb)

/-- A narrow float: no subnormals, a hidden one everywhere, zero only as code 0 (R65). -/
def decodeNarrow (eb mb bias code : Nat) : Ex :=
  if code = 0 then .fin false 0 0
  else .fin (bit code (eb + mb)) (2 ^ mb + bits code 0 mb) ((bits code mb eb : Int) - bias - mb)

/-- A signed integer as an exact value (R66). -/
def exInt (n : Int) : Ex := .fin (decide (n < 0)) n.natAbs 0

/-- An exact value times 2^k. -/
def Ex.scale (x : Ex) (k : Int) : Ex := match x with | .fin n m e => .fin n m (e + k) | y => y

/-- Decode(code, fmt) without the block scale; SPF32 at σ = 0 (R65 to R68, R73). -/
def decodeFmt (fmt code : Nat) : Ex :=
  match fmt with
  | 1 => decodeIeee 23 code
  | 2 => decodeIeee 7 code
  | 3 => exInt (signed 32 code)
  | 4 => exInt (signed 16 code)
  | 5 => exInt (code % 65536)
  | 8 => if code % 128 = 127 then .nan else decodeNarrow 4 3 7 code
  | 9 => if code % 128 = 127 then .nan else decodeNarrow 5 2 15 code
  | 10 => exInt (signed 8 code)
  | 11 => exInt (code % 256)
  | 12 => decodeNarrow 2 1 1 code
  | 13 => exInt (signed 4 code)
  | 14 => exInt (match code % 4 with | 1 => 1 | 3 => -1 | _ => 0)
  | 16 => .fin false (bits code 0 24) (8 - (bits code 24 8 : Int))
  | _ => .nan

/-- Whether a magnitude rounds up by the mode (R69): `odd` the truncated code's last bit, and the
discarded part against one half (0 none, 1 below, 2 half, 3 above). -/
def roundsUp (mode : Nat) (neg odd : Bool) (part : Nat) : Bool :=
  match mode with
  | 0 => decide (part = 3) || (decide (part = 2) && odd)
  | 1 => false
  | 2 => decide (part ≠ 0) && !neg
  | 3 => decide (part ≠ 0) && neg
  | _ => decide (part ≥ 2)

/-- m × 2^(−shift) rounded to an integer by the mode, and whether it is inexact. A shift far past the
value leaves less than one half. -/
def roundShift (mode : Nat) (neg : Bool) (m shift : Nat) : Nat × Bool :=
  if m = 0 then (0, false)
  else if shift > Nat.log2 m + 2 then ((if roundsUp mode neg false 1 then 1 else 0), true)
  else
    let n := m / 2 ^ shift
    let r := m % 2 ^ shift
    let part := if r = 0 then 0 else if 2 * r < 2 ^ shift then 1 else if 2 * r = 2 ^ shift then 2 else 3
    (n + (if roundsUp mode neg (decide (n % 2 = 1)) part then 1 else 0), decide (r ≠ 0))

/-- m × 2^e rounded to an integer magnitude. -/
def roundInt (mode : Nat) (neg : Bool) (m : Nat) (e : Int) : Nat × Bool :=
  if e ≥ 0 then (m * 2 ^ e.toNat, false) else roundShift mode neg m (-e).toNat

/-- Round into F32 (mb = 23) or BF16 (mb = 7) (R74). -/
def roundIeee (mb : Nat) (x : Ex) (mode : Nat) : Nat × Flags :=
  let sign (neg : Bool) : Nat := if neg then 2 ^ (8 + mb) else 0
  let infCode := 255 * 2 ^ mb
  match x with
  | .nan => (infCode + 2 ^ (mb - 1), {})
  | .inf neg => (sign neg + infCode, {})
  | .fin neg m e =>
    if m = 0 then (sign neg, {})
    else
      let top : Int := (Nat.log2 m : Int) + e
      let qmin : Int := -126 - (mb : Int)
      let away := decide (mode = 2) && !neg || decide (mode = 3) && neg
      let nearest := decide (mode = 0) || decide (mode = 4)
      if top > 127 then (sign neg + (if nearest || away then infCode else infCode - 1), { of := true, nx := true })
      else
        let q : Int := max (top - mb) qmin
        let (n, inexact) := if e ≥ q then (m * 2 ^ (e - q).toNat, false) else roundShift mode neg m (q - e).toNat
        let code := (q - qmin).toNat * 2 ^ mb + n
        let beyond := inexact && decide (top = 127) &&
          decide ((if e ≥ q then m * 2 ^ (e - q).toNat else m / 2 ^ (q - e).toNat) ≥ 2 ^ (mb + 1) - 1)
        (sign neg + code,
          { nx := inexact, of := beyond, uf := inexact && (decide (n = 0) || decide (top < -126)) })

/-- The exact integer x × 2^(−e0), for e0 at or below x's exponent. -/
def Ex.units (x : Ex) (e0 : Int) : Int :=
  match x with
  | .fin neg m e => (if neg then -1 else 1) * ((m * 2 ^ (e - e0).toNat : Nat) : Int)
  | _ => 0

/-- Finite codes of a narrow format (R65). -/
def narrowCodes (fmt : Nat) : List Nat :=
  if fmt = 12 then List.range 16 else (List.range 256).filter fun c => c % 128 ≠ 127

/-- Round into F8E4, F8E5 or F4E2 (R74): the nearest finite values below and above, zero included. -/
def roundNarrow (fmt : Nat) (x : Ex) (mode : Nat) : Nat × Flags :=
  let maxPos := if fmt = 12 then 7 else 0x7E
  let maxNeg := if fmt = 12 then 15 else 0xFE
  match x with
  | .nan => if fmt = 12 then (0, { nv := true }) else (0x7F, {})
  | .inf neg => ((if neg then maxNeg else maxPos), { of := true })
  | .fin neg m e =>
    if m = 0 then (0, {})
    else if (Nat.log2 m : Int) + e > 20 then ((if neg then maxNeg else maxPos), { of := true, nx := true })
    else
      let tiny := decide ((Nat.log2 m : Int) + e < -40)
      let y : Ex := if tiny then .fin neg 1 (-60) else x
      let e0 : Int := match y with | .fin _ _ k => min k (-60) | _ => -60
      let v := y.units e0
      let vals := (narrowCodes fmt).map fun c => (c, (decodeFmt fmt c).units e0)
      match vals.find? fun p => p.2 = v with
      | some p => (p.1, {})
      | none =>
        let below := vals.filter fun p => decide (p.2 < v)
        let above := vals.filter fun p => decide (p.2 > v)
        let lo := below.foldl (fun b p => match b with | none => some p | some q => if p.2 > q.2 then some p else some q) (none : Option (Nat × Int))
        let hi := above.foldl (fun b p => match b with | none => some p | some q => if p.2 < q.2 then some p else some q) (none : Option (Nat × Int))
        match lo, hi with
        | none, _ => (maxNeg, { of := true, nx := true })
        | _, none => (maxPos, { of := true, nx := true })
        | some l, some h =>
          let dl := v - l.2
          let dh := h.2 - v
          let smaller := if l.2.natAbs < h.2.natAbs then l else h
          let larger := if l.2.natAbs < h.2.natAbs then h else l
          let evens := if l.1 % 2 = 0 ∧ h.1 % 2 = 0 then (if l.1 = 0 then l else h) else if l.1 % 2 = 0 then l else h
          let c := match mode with
            | 0 => if dl < dh then l else if dh < dl then h else evens
            | 1 => smaller
            | 2 => h
            | 3 => l
            | _ => if dl < dh then l else if dh < dl then h else larger
          (c.1, { nx := true, uf := decide (c.1 = 0) })

/-- Saturate(n, width, kind): wrap, signed or unsigned clamp (R75). -/
def saturate (n : Int) (w kind : Nat) : Nat × Flags :=
  let lo : Int := if kind = 1 then -(2 : Int) ^ (w - 1) else 0
  let hi : Int := if kind = 1 then 2 ^ (w - 1) - 1 else 2 ^ w - 1
  if kind = 0 then ((n % (2 : Int) ^ w).toNat, {})
  else if n < lo then ((lo % (2 : Int) ^ w).toNat, { of := true })
  else if n > hi then ((hi % (2 : Int) ^ w).toNat, { of := true })
  else ((n % (2 : Int) ^ w).toNat, {})

/-- Round into an integer format of a width and kind (R74). -/
def roundToInt (w kind : Nat) (x : Ex) (mode : Nat) : Nat × Flags :=
  match x with
  | .nan => (0, { nv := true })
  | .inf neg =>
    let r := saturate (if neg then -(2 : Int) ^ (w + 1) else 2 ^ (w + 1)) w kind
    (r.1, r.2.or { nv := true })
  | .fin neg m e =>
    if m ≠ 0 ∧ (Nat.log2 m : Int) + e > 200 then saturate (if neg then -(2 : Int) ^ (w + 1) else 2 ^ (w + 1)) w kind
    else
      let (n, inexact) := roundInt mode neg m e
      let r := saturate (if neg then -(n : Int) else n) w kind
      (r.1, r.2.or { nx := inexact })

/-- RoundSP(x, σ, mode) (R76). -/
def roundSp (x : Ex) (sigma : Int) (mode : Nat) : Nat × Flags :=
  match x with
  | .nan => (0, { nv := true })
  | .inf neg => if neg then (0, { nv := true }) else (0x00FFFFFF, { of := true })
  | .fin neg m e =>
    if m = 0 then (0, {})
    else if neg then (0, { nv := true })
    else
      let ey := e - sigma
      let k0 : Int := (Nat.log2 m : Int) + 1 + ey
      let (f0, inexact) := roundInt mode false m (ey + 24 - k0)
      let f := if f0 = 2 ^ 24 then 2 ^ 23 else f0
      let k : Int := if f0 = 2 ^ 24 then k0 + 1 else k0
      let ex : Int := 32 - k
      if ex > 255 then (0, { uf := true, nx := true })
      else if ex < 0 then (0x00FFFFFF, { of := true, nx := true })
      else (ex.toNat * 2 ^ 24 + f, { nx := inexact })

/-- Round(x, fmt, mode) into any format but T2; SPF32 at the given σ (R74). -/
def roundFmt (fmt : Nat) (sigma : Int) (x : Ex) (mode : Nat) : Nat × Flags :=
  match fmt with
  | 1 => roundIeee 23 x mode
  | 2 => roundIeee 7 x mode
  | 3 => roundToInt 32 1 x mode
  | 4 => roundToInt 16 1 x mode
  | 5 => roundToInt 16 2 x mode
  | 10 => roundToInt 8 1 x mode
  | 11 => roundToInt 8 2 x mode
  | 13 => roundToInt 4 1 x mode
  | 16 => roundSp x sigma mode
  | _ => roundNarrow fmt x mode

/-- A value so small beside a term with exponent `e` that only its being there can count in any
rounding: it stands as one unit 400 places below. -/
def Ex.guard (x : Ex) (e : Int) : Ex :=
  match x with
  | .fin neg m k => if m ≠ 0 ∧ (Nat.log2 m : Int) + k + 400 < e then .fin neg 1 (e - 400) else x
  | y => y

/-- Exact sum (R72): opposite infinities have no value; an exact zero of opposite signs is +0, or −0
toward −∞. -/
def exAdd (a b : Ex) (mode : Nat) : Ex × Flags :=
  match a, b with
  | .nan, _ => (.nan, {})
  | _, .nan => (.nan, {})
  | .inf x, .inf y => if x = y then (.inf x, {}) else (.nan, { nv := true })
  | .inf x, _ => (.inf x, {})
  | _, .inf y => (.inf y, {})
  | .fin na ma ea, .fin nb mb eb =>
    if ma = 0 ∧ mb = 0 then (.fin (if na = nb then na else decide (mode = 3)) 0 0, {})
    else if ma = 0 then (b, {})
    else if mb = 0 then (a, {})
    else
      let a' := a.guard eb
      let b' := b.guard ea
      let e0 : Int := match a', b' with | .fin _ _ x, .fin _ _ y => min x y | _, _ => 0
      let v := a'.units e0 + b'.units e0
      if v = 0 then (.fin (decide (mode = 3)) 0 0, {}) else (.fin (decide (v < 0)) v.natAbs e0, {})

/-- Exact product (R72): 0 × ∞ has no value. -/
def exMul (a b : Ex) : Ex × Flags :=
  match a, b with
  | .nan, _ => (.nan, {})
  | _, .nan => (.nan, {})
  | .inf x, .inf y => (.inf (x ^^ y), {})
  | .inf x, .fin y m _ => if m = 0 then (.nan, { nv := true }) else (.inf (x ^^ y), {})
  | .fin x m _, .inf y => if m = 0 then (.nan, { nv := true }) else (.inf (x ^^ y), {})
  | .fin x m e, .fin y n k => (.fin (x ^^ y) (m * n) (e + k), {})

/-- The value with its sign turned. -/
def Ex.neg : Ex → Ex
  | .nan => .nan
  | .inf n => .inf !n
  | .fin n m e => .fin (!n) m e

def Ex.isNan : Ex → Bool
  | .nan => true
  | _ => false

/-- Order of two values that are not NaN, +0 = −0. -/
def Ex.lt (a b : Ex) : Bool :=
  match a, b with
  | .inf x, .inf y => x && !y
  | .inf x, .fin .. => x
  | .fin .., .inf y => !y
  | .fin _ _ e, .fin _ _ k => decide (a.units (min e k) < b.units (min e k))
  | _, _ => false

/-- Round of an operation's exact value, with the flags of both (R78). -/
def deliver (mb : Nat) (x : Ex × Flags) (mode : Nat) : Nat × Flags :=
  let r := roundIeee mb x.1 mode
  (r.1, x.2.or r.2)

/-- The FP32 (mb = 23) and BF16 (mb = 7) arithmetic (R78, R162, R168). A NaN operand sets no flag (R70). -/
def fpAdd (mb a b mode : Nat) : Nat × Flags := deliver mb (exAdd (decodeIeee mb a) (decodeIeee mb b) mode) mode
def fpSub (mb a b mode : Nat) : Nat × Flags := deliver mb (exAdd (decodeIeee mb a) (decodeIeee mb b).neg mode) mode
def fpMul (mb a b mode : Nat) : Nat × Flags := deliver mb (exMul (decodeIeee mb a) (decodeIeee mb b)) mode
def fpFma (mb a b c mode : Nat) : Nat × Flags :=
  let z := decodeIeee mb c
  let p := exMul (decodeIeee mb a) (decodeIeee mb b)
  let q := exAdd p.1 z mode
  deliver mb (q.1, if z.isNan then {} else p.2.or q.2) mode

/-- Canonical NaN of F32 (mb = 23) or BF16 (mb = 7) (R72). -/
def canonNan (mb : Nat) : Nat := 255 * 2 ^ mb + 2 ^ (mb - 1)

/-- `fmin` and `fmax`: −0 counts as less than +0; NaN where either operand is NaN (R163). -/
def fpMinMax (mb : Nat) (wantMax : Bool) (a b : Nat) : Nat :=
  let x := decodeIeee mb a
  let y := decodeIeee mb b
  if x.isNan || y.isNan then canonNan mb
  else
    let aNeg := bit a (8 + mb)
    let less := x.lt y || (!(y.lt x) && aNeg)
    if less then (if wantMax then b else a) else (if wantMax then a else b)

/-- The fp-cc conditions (R163). -/
def fpCond (cc a b : Nat) : Bool :=
  let x := decodeIeee 23 a
  let y := decodeIeee 23 b
  let un := x.isNan || y.isNan
  let eq := !un && !(x.lt y) && !(y.lt x)
  match cc with
  | 0 => eq
  | 1 => !eq
  | 2 => !un && x.lt y
  | 3 => !un && !(y.lt x)
  | 4 => un
  | _ => !un

/-- `rndi`: rounded to an integral F32, the sign of a zero kept, no flag (R164). -/
def fpRndi (a mode : Nat) : Nat :=
  match decodeIeee 23 a with
  | .nan => canonNan 23
  | .inf _ => a
  | .fin neg m e =>
    if e ≥ 0 then a
    else
      let n := (roundInt mode neg m e).1
      (roundIeee 23 (.fin neg n 0) 0).1

/-- ln 2 × 2^260, truncated (log 12). -/
def ln2Fixed : Nat := 1284175362975860941795742467300961128543850681785439145697965880086719311618750

/-- Σ x^k / k! in fixed point with 260 fraction bits: `term` is the term of index `k`. -/
def expSeries : Nat → Int → Int → Nat → Int → Int
  | 0, _, _, _, acc => acc
  | n + 1, x, term, k, acc =>
    let t := term * x / (2 : Int) ^ 260 / ((k : Int) + 1)
    expSeries n x t (k + 1) (acc + t)

/-- 2^a for −1 ≤ a ≤ 1 as an exact value good to far more bits than any rounding needs (R165, log 12). -/
def exp2Fixed (neg : Bool) (m : Nat) (e : Int) : Ex :=
  let mag := m * ln2Fixed / 2 ^ (-e).toNat
  let x : Int := if neg then -(mag : Int) - 1 else mag
  .fin false (expSeries 70 x ((2 : Int) ^ 260) 0 ((2 : Int) ^ 260)).toNat (-260)

/-- `fxp` (R165). -/
def fpExp2 (a : Nat) : Nat × Flags :=
  match decodeIeee 23 a with
  | .nan => (canonNan 23, {})
  | .inf _ => (canonNan 23, { nv := true })
  | .fin neg m e =>
    if m = 0 then (0x3F800000, {})
    else if (Ex.fin false 1 0).lt (.fin false m e) then (canonNan 23, { nv := true })
    else if a % 2 ^ 31 = 0x3F800000 then ((if neg then 0x3F000000 else 0x40000000), {})
    else ((roundIeee 23 (exp2Fixed neg m e) 0).1, { nx := true })

/-- `expins`: a × 2^b, rounded once (R166). -/
def fpExpIns (a b : Nat) : Nat × Flags := roundIeee 23 ((decodeIeee 23 a).scale (signed 32 b)) 0

/-- `expext` (R166). -/
def fpExpExt (a : Nat) : Nat × Flags :=
  match decodeIeee 23 a with
  | .nan => (0x7FFFFFFF, { nv := true })
  | .inf _ => (0x7FFFFFFF, {})
  | .fin _ m e => if m = 0 then (0x80000000, {}) else ((((Nat.log2 m : Int) + e) % (2 : Int) ^ 32).toNat, {})

/-- The second rounding of R167, with NX where the delivered value differs from y. -/
def secondRound (neg : Bool) (n : Nat) (e : Int) (inexact : Bool) : Nat × Flags :=
  let r := roundIeee 23 (.fin neg n e) 0
  (r.1, { r.2 with nx := r.2.nx || inexact })

/-- `frcp` (R167). -/
def fpRcp (a : Nat) : Nat × Flags :=
  match decodeIeee 23 a with
  | .nan => (canonNan 23, {})
  | .inf neg => ((if neg then 0x80000000 else 0), {})
  | .fin neg m e =>
    if m = 0 then ((if neg then 0xFF800000 else 0x7F800000), {})
    else
      let l := Nat.log2 m + 1
      let k := if m = 2 ^ (l - 1) then 10 + l else 11 + l
      let q := 2 ^ k / m
      let r := 2 ^ k % m
      let part := if r = 0 then 0 else if 2 * r < m then 1 else if 2 * r = m then 2 else 3
      let n := q + (if roundsUp 0 neg (decide (q % 2 = 1)) part then 1 else 0)
      secondRound neg n (-e - k) (decide (r ≠ 0))

/-- The largest n below 2^14 with n² × m ≤ v. -/
def rootSearch : Nat → Nat → Nat → Nat → Nat
  | 0, _, _, n => n
  | k + 1, m, v, n => if (n + 2 ^ k) * (n + 2 ^ k) * m ≤ v then rootSearch k m v (n + 2 ^ k) else rootSearch k m v n

/-- `frsq` (R167). -/
def fpRsq (a : Nat) : Nat × Flags :=
  match decodeIeee 23 a with
  | .nan => (canonNan 23, {})
  | .inf neg => if neg then (canonNan 23, { nv := true }) else (0, {})
  | .fin neg m0 e0 =>
    if m0 = 0 then ((if neg then 0xFF800000 else 0x7F800000), {})
    else if neg then (canonNan 23, { nv := true })
    else
      let m := if e0 % 2 = 0 then m0 else 2 * m0
      let e := if e0 % 2 = 0 then e0 else e0 - 1
      let k0 := 11 + (Nat.log2 m + 1) / 2
      let n0 := rootSearch 14 m (2 ^ (2 * k0)) 0
      let k := if n0 ≥ 4096 then k0 - 1 else if n0 < 2048 then k0 + 1 else k0
      let v := 2 ^ (2 * k)
      let n1 := rootSearch 14 m v 0
      let mid := (2 * n1 + 1) * (2 * n1 + 1) * m
      let up := decide (mid < 4 * v) || (decide (mid = 4 * v) && decide (n1 % 2 = 1))
      secondRound false (if up then n1 + 1 else n1) (-e / 2 - k) (decide (n1 * n1 * m ≠ v))

end Sys2Proof.Machine
end

