-- ==== Sys2Proof/Machine/Engine.lean ====
section
/-! DEFINITION. What the engines share: issue of a command, its slots, its place in the queue of its
engine, completion and asynchronous faults (R23, R135, R246, R270, R280), and blocks (R60 to R63). -/

namespace Sys2Proof.Machine

/-! ### Issue -/

/-- Which queue of a tile a command enters: matrix, Skink, copy. -/
inductive Unit_ where
  | mx | sk | cp
  deriving DecidableEq, Repr

def Unit_.index : Unit_ → Nat
  | .mx => 0 | .sk => 1 | .cp => 2

def Tile.queue (tl : Tile) : Unit_ → List Cmd
  | .mx => tl.mxQ | .sk => tl.skQ | .cp => tl.cpQ

def Tile.setQueue (tl : Tile) (u : Unit_) (q : List Cmd) : Tile :=
  match u with
  | .mx => { tl with mxQ := q } | .sk => { tl with skQ := q } | .cp => { tl with cpQ := q }

/-- The slots an engine command takes at its issue (R270 steps 5 and 6): `n` slots of handle `hn`.
It waits until Avail covers them; a count past the declared one aborts the firing (R238). -/
def withSlots (i : Instr) (s : State) (t : Thread) (hn n : Nat) (k : State → Thread → State) : State :=
  let h := t.handle hn
  if n > h.depth then s.raiseFree t i 0x06
  else if !(s.takeOk t hn n) then s.takeExcess t i hn n
  else
    match s.availTo? t.tile h with
    | none => s.ringFault t i h
    | some av =>
      if av < n then s.waitAt t i
      else
        let t1 := (t.setHandle hn { h with p := h.p + n }).countTaken hn n
        let t2 := { t1 with region := t1.region.map fun r => { r with deferred := r.deferred ++ [Deferred.take hn n] } }
        k (s.recordTaken t hn n) t2

/-- The first operand address of an engine command: the address in its field a, where the command takes one there (R37,
R386). The configuration, shape, clear, tree, norm, wait, expect and stop commands take none. -/
def operandAddr (i : Instr) (t : Thread) : Option Word :=
  match i with
  | .mxCfg .. | .mxClr .. | .mxWait | .mxRunRing .. | .mxOutRing .. | .mxOutRingExt .. | .spCfg .. | .spShape .. | .spLdRing ..
  | .spStRing .. | .spUp .. | .spUpNosave .. | .spDown .. | .spDownAcc .. | .spNorm .. | .spNormSet .. | .spWait | .cpExpect ..
  | .msStop .. => none
  | .spStExt r .. => if r = 1 then none else some (t.reg ((firstWord i).toNat / 2048 % 32))
  | _ => some (t.reg ((firstWord i).toNat / 2048 % 32))

/-- The trace event of the issue of an engine command (R386, R389): its major opcode and first operand address. -/
def State.traceEngine (s : State) (t1 : Thread) (i : Instr) : State :=
  let a := operandAddr i t1
  s.trace t1 4 ((firstWord i).toNat / 67108864) t1.pc t1.seq (a.getD 0) ((1, t1.pc) :: a.toList.map fun x => (2, x))

/-- The name of an engine command that has taken its sequence number. -/
def Thread.commandName (t1 : Thread) (i : Instr) : Name := { t1.nameAt t1.pc t1.seq with acct := t1.bill, operand := operandAddr i t1 }

/-- A command that completes at its issue (R270, R273, R278): it takes its sequence number. -/
def completeNow (i : Instr) (s : State) (t : Thread) : State :=
  let t1 := t.bumpSeq
  let a := operandAddr i t1
  ((s.traceEngine t1 i).trace t1 5 0 t1.pc t1.seq (a.getD 0) ((1, t1.pc) :: a.toList.map fun x => (2, x))).advance t1 i

/-- A command issues: it takes its sequence number and its number, and enters its engine's queue (R23,
R246). -/
def enqueue (u : Unit_) (i : Instr) (s : State) (t : Thread) (op : CmdOp) (slots : List (Nat × Nat)) (first : List Nat) : State :=
  let t1 := t.bumpSeq
  let c : Cmd := { id := s.nextCmd, name := t1.commandName i, op, level := t.level
                   cfg := match u with | .mx => t.mxTcfg | _ => t.skTcfg
                   fence := t.fence, inRegion := t.region.isSome
                   slots, space0 := first }
  let tl := s.tile t.tile
  let s1 := { (s.setTile t.tile (tl.setQueue u (tl.queue u ++ [c]))) with nextCmd := s.nextCmd + 1 }
  (s1.traceEngine t1 i).advance t1 i


/-- Whether every command of a thread issued before a fence has completed (R135). -/
def State.fenceOk (s : State) (thread fence : Nat) : Bool :=
  ((s.tile (thread / 4)).cmds.all fun c => decide (c.name.thread ≠ thread ∨ c.id ≥ fence)) &&
    s.subs.all fun u => (decide (u.thread ≠ some thread) || u.left.isNone || decide (u.cmd ≥ fence)) &&
      u.stoppers.all fun k => decide (k.1.thread ≠ thread ∨ k.2.1 ≥ fence)

/-! ### The engine's choice (R246, R135) -/

/-- A command that the spec makes a legal no-op (R270): it issues and completes; behind a fence it completes in its turn
(R135), until when its handle is in use (R192). -/
def noopCommand (u : Unit_) (i : Instr) (h : Option Nat) (s : State) (t : Thread) : State :=
  if s.fenceOk t.num t.fence then completeNow i s t else enqueue u i s t (.noop h) [] []

/-- The head of a thread's queue in an engine, if nothing it must wait for is outstanding. -/
def State.engineHead (s : State) (u : Unit_) (thread : Nat) : Option Cmd :=
  (((s.tile (thread / 4)).queue u).find? fun c => decide (c.name.thread = thread)).filter fun c => s.fenceOk thread c.fence

/-- The thread, of some threads, whose head an engine takes: the highest priority, then cyclic thread order (R246). -/
def State.engineChoiceAmong (s : State) (u : Unit_) (tile : Nat) (ok : Nat → Bool) : Option Nat :=
  let last := (s.tile tile).engLast.toArray.getD u.index 3
  let order := (List.range 4).map fun k => 4 * tile + (last + 1 + k) % 4
  let prio (n : Nat) : Nat := match s.thread? n with | some t => t.prio | none => 0
  let heads := order.filter fun n => ok n && (s.engineHead u n).isSome
  ([3, 2, 1, 0].filterMap fun p => heads.find? fun n => decide (prio n = p)).head?

/-- The thread whose head an engine takes. -/
def State.engineChoice (s : State) (u : Unit_) (tile : Nat) : Option Nat := s.engineChoiceAmong u tile fun _ => true

/-- An engine takes a command of a thread: it leaves its queue, and the thread is the one that the engine has served last. -/
def State.takeCmd (s : State) (u : Unit_) (tile : Nat) (c : Cmd) : State :=
  let tl := s.tile tile
  let tl1 := tl.setQueue u ((tl.queue u).filter fun d => decide (d.id ≠ c.id))
  let s1 := s.setTile tile { tl1 with engLast := tl1.engLast.setIfInBounds u.index (c.name.thread % 4) }
  { s1 with pubBy := some (c.name.part, c.name.inst, c.name.ordinal) }

/-- An engine performs the head of a thread's queue, if that is the one it takes (R246). -/
def perform (u : Unit_) (tile thread : Nat) (s : State) (run : State → Cmd → State) : Out :=
  if s.engineChoice u tile ≠ some thread then .next s
  else
    match s.engineHead u thread with
    | none => .next s
    | some c => .next (run (s.takeCmd u tile c) c)

/-! ### Completion and faults -/

/-- A command completes: its slots are applied, with the charges of the control writes (R191, R285); inside a region they
are the region's (R270). -/
def State.completed (s : State) (c : Cmd) : State :=
  (if c.inRegion then [] else c.slots).foldl (fun s e =>
    match s.thread? c.name.thread with
    | none => s
    | some t =>
      let h := t.handle e.1
      let cells := h.applyCells t.tile e.2
      ((s.chargeCells (s.islandOf t.tile) c.name.acct t.tile cells).publish cells).setThread (t.setHandle e.1 (h.applied e.2)))
    (s.traceDone c.name 0)

/-- The slots of a discarded command return unapplied (R280): those of an open region leave its deferred list. -/
def State.returned (s : State) (c : Cmd) : State :=
  c.slots.foldl (fun s e =>
    match s.thread? c.name.thread with
    | none => s
    | some t =>
      let h := t.handle e.1
      let t1 := t.setHandle e.1 { h with p := h.p - e.2 }
      s.setThread (if c.inRegion then
        { t1 with region := t1.region.map fun r => { r with
            deferred := r.deferred.erase (Deferred.take e.1 e.2)
            taken := r.taken.setIfInBounds e.1 (r.taken.toArray.getD e.1 0 - e.2) } }
        else t1)) s

/-- An asynchronous fault of a command (R280): outside a region the thread's later commands of the
engine are discarded, their slots and its own returned unapplied (DEDUCED, log 123), and a missing page is PROT, which alone of the causes of R307 and
R315 it can be; inside one the region is aborted. `access` is the kind of the access that failed (R363). -/
def State.commandFault (s : State) (u : Unit_) (c : Cmd) (cause : Nat) (value : Word) (access : Nat := 0) : State :=
  let tile := c.name.thread / 4
  let s := s.traceDone c.name cause
  if c.inRegion then s.asyncTrap c.name true cause access value
  else
    let tl := s.tile tile
    let later := (tl.queue u).filter fun d => decide (d.name.thread = c.name.thread)
    let s1 := s.setTile tile (tl.setQueue u ((tl.queue u).filter fun d => decide (d.name.thread ≠ c.name.thread)))
    let s2 := (c :: later).foldl (fun s d => s.returned d) s1
    s2.asyncTrap c.name false (if cause = 0x22 then 0x21 else cause) access value

/-- A fault whose value the spec does not state (log 7). -/
def State.commandFaultFree (s : State) (u : Unit_) (c : Cmd) (cause : Nat) : State :=
  { s with fresh := s.fresh + 1 }.commandFault u c cause (Config.freeWord s.fresh)

/-- A fault of a command at a block of one of its tile's stores: the value is the offset there; SHAPE names none (log 7), and
an uncorrectable error is recorded (R149). -/
def State.storeFault (s : State) (u : Unit_) (c : Cmd) (space cause pa : Nat) : State :=
  if cause = 0x06 then s.commandFaultFree u c cause
  else (if cause = 0x90 then s.memUe pa 0 else s).commandFault u c cause (word (pa - storeBase (c.name.thread / 4) space))

/-- A charge of a command, to its issuing thread's account at its tile (R285, R309). -/
def State.chargeCmd (s : State) (c : Cmd) (cls n : Nat) : State :=
  s.charge (s.islandOf (c.name.thread / 4)) c.name.acct cls n

/-! ### Blocks -/

/-- The formats an A operand accepts, which are those `mx.out` may write (R266). -/
def plainFormat (f : Nat) : Bool := [1, 2, 3, 4, 5, 8, 9, 10, 11, 12, 13].contains f

/-- The element codes of a block in a format (R60, R64). -/
def blockCodes (fmt : Nat) (bs : List Byte) : List Nat :=
  let v := leNat bs
  (List.range (fmtPerBlock fmt)).map fun k => bits v (k * fmtBits fmt) (fmtBits fmt)

/-- The 64 bytes of a block with element codes from position 0, zero padded (R60). -/
def packBlock (fmt : Nat) (codes : List Nat) : List Byte :=
  leBytes 64 (codes.reverse.foldl (fun v c => v * 2 ^ fmtBits fmt + c % 2 ^ fmtBits fmt) 0)

/-- A descriptor's format and scale (R60). -/
def descFmt (d : BitVec 16) : Nat := d.toNat % 256
def descScale (d : BitVec 16) : Int := signed 8 (d.toNat / 256)

/-- The descriptor of a format and a scale. -/
def descOf (fmt : Nat) (scale : Int) : BitVec 16 := BitVec.ofNat 16 (fmt % 256 + (scale % 256).toNat * 256)

/-- Follows descriptors (R63): the format and scale of a block, RAW read in the default format with
scale 0; none where the block is not accepted. -/
def followFmt (accepted : Nat → Bool) (default : Nat) (d : BitVec 16) : Option (Nat × Int) :=
  if descFmt d = 0 then (if default = 0 then none else some (default, 0))
  else if accepted (descFmt d) then some (descFmt d, descScale d) else none

/-- Imposes a format (R63). -/
def imposeFmt (fmt : Nat) (d : BitVec 16) : Option (Nat × Int) :=
  if descFmt d = 0 then some (fmt, 0) else if descFmt d = fmt then some (fmt, descScale d) else none

/-- The elements of a row: the code in its format, and the block's format and scale (R267). -/
structure Elem where
  fmt : Nat
  scale : Int
  code : Nat
  deriving DecidableEq, Repr

/-- The described value of an element (R73). -/
def Elem.value (x : Elem) : Ex := (decodeFmt x.fmt x.code).scale x.scale

/-- Why a row could not be assembled: a cause, and the physical address of the block. -/
abbrev RowFault := Nat × Nat

/-- Assembles `count` elements from consecutive blocks at a physical address, at most up to `stop`
(R267). An uncorrectable error is MEM_UE, a block past the count SHAPE, past `stop` the cause given. -/
def assembleRow (s : State) (pick : BitVec 16 → Option (Nat × Int)) (stop pastStop : Nat) :
    Nat → Nat → Nat → Except RowFault (List Elem × Nat)
  | 0, pa, count => if count = 0 then .ok ([], pa) else .error (0x06, pa)
  | fuel + 1, pa, count =>
    if count = 0 then .ok ([], pa)
    else if pa + 64 > stop then .error (pastStop, pa)
    else if s.bad pa 64 then .error (0x90, pa)
    else
      match pick (s.descAt pa) with
      | none => .error (0x07, pa)
      | some (fmt, scale) =>
        let n := fmtPerBlock fmt
        if n > count then .error (0x06, pa)
        else
          match assembleRow s pick stop pastStop fuel (pa + 64) (count - n) with
          | .error e => .error e
          | .ok (r, e) => .ok ((blockCodes fmt (s.readBytes pa 64)).map (fun c => { fmt, scale, code := c }) ++ r, e)

/-- The exact sum of integers times powers of two, as such a pair (R80). -/
def exactSum : List (Int × Int) → Int × Int
  | [] => (0, 0)
  | (n, e) :: r =>
    let x := exactSum r
    if n = 0 then x else if x.1 = 0 then (n, e)
    else
      let e0 := min e x.2
      (n * (2 : Int) ^ (e - e0).toNat + x.1 * (2 : Int) ^ (x.2 - e0).toNat, e0)

end Sys2Proof.Machine
end

