-- ==== Sys2Proof/Machine/MemInstr.lean ====
section
/-! DEFINITION. Memory access, atomics, phases, waits and spills: majors 0x18 to 0x1D (R126 to R139). -/

namespace Sys2Proof.Machine

/-- log₂ of an access size, for the trace record (R386). -/
def log2Size (z : Nat) : Nat := Nat.log2 z

/-- The trace event of a memory instruction (R386). -/
def State.traceMem (s : State) (t : Thread) (z space kind : Nat) (ea : Word) : State :=
  s.trace t 3 (log2Size z + 16 * space + 64 * kind) t.pc t.seq ea [(1, t.pc), (2, ea)]

/-- A load of `z` bytes (R126, R128): `write` puts the bytes into the destination. -/
def load {w : Nat} (i : Instr) (a : BitVec 5) (sp : BitVec 2) (o : BitVec w) (z : Nat)
    (put : Thread → List Byte → Thread) (s : State) : Out :=
  issue i (if sp.toNat = 3 then 1 else 0) s fun s t =>
    let ea := effective t a o z
    if ea.toNat % z ≠ 0 then s.raise t i 0x03 ea
    else
      match s.check t sp.toNat .read ea z with
      | (s1, .error m) => s1.missed t i .read m
      | (s1, .ok pa) => (s1.traceMem t z sp.toNat 0 ea).advance (put t (s1.loadBytes t pa z)) i

/-- A store of `z` bytes, which enter the buffer (R126, R128, R122). -/
def store {w : Nat} (i : Instr) (a : BitVec 5) (sp : BitVec 2) (o : BitVec w) (z : Nat)
    (data : Thread → List Byte) (s : State) : Out :=
  issue i 0 s fun s t =>
    let ea := effective t a o z
    if ea.toNat % z ≠ 0 then s.raise t i 0x03 ea
    else
      match s.check t sp.toNat .write ea z with
      | (s1, .error m) => s1.missed t i .write m
      | (s1, .ok pa) => (s1.traceMem t z sp.toNat 1 ea).advance (t.buffer pa ea.toNat (decide (sp.toNat = 0)) (data t)) i

def execLd8 (d a : BitVec 5) (sp : BitVec 2) (o : BitVec 11) (s : State) : Out :=
  load (.ld8 d a sp o) a sp o 1 (fun t bs => t.setReg d.toNat (extend false bs)) s
def execLd16 (d a : BitVec 5) (sp : BitVec 2) (o : BitVec 11) (s : State) : Out :=
  load (.ld16 d a sp o) a sp o 2 (fun t bs => t.setReg d.toNat (extend false bs)) s
def execLd32 (d a : BitVec 5) (sp : BitVec 2) (o : BitVec 11) (s : State) : Out :=
  load (.ld32 d a sp o) a sp o 4 (fun t bs => t.setReg d.toNat (extend false bs)) s
def execLd64 (d a : BitVec 5) (sp : BitVec 2) (o : BitVec 11) (s : State) : Out :=
  load (.ld64 d a sp o) a sp o 8 (fun t bs => t.setReg d.toNat (extend false bs)) s
def execLd8s (d a : BitVec 5) (sp : BitVec 2) (o : BitVec 11) (s : State) : Out :=
  load (.ld8s d a sp o) a sp o 1 (fun t bs => t.setReg d.toNat (extend true bs)) s
def execLd16s (d a : BitVec 5) (sp : BitVec 2) (o : BitVec 11) (s : State) : Out :=
  load (.ld16s d a sp o) a sp o 2 (fun t bs => t.setReg d.toNat (extend true bs)) s
def execLd32s (d a : BitVec 5) (sp : BitVec 2) (o : BitVec 11) (s : State) : Out :=
  load (.ld32s d a sp o) a sp o 4 (fun t bs => t.setReg d.toNat (extend true bs)) s

def execSt8 (d a : BitVec 5) (sp : BitVec 2) (o : BitVec 11) (s : State) : Out :=
  store (.st8 d a sp o) a sp o 1 (fun t => dataBytes (t.reg d.toNat) 1) s
def execSt16 (d a : BitVec 5) (sp : BitVec 2) (o : BitVec 11) (s : State) : Out :=
  store (.st16 d a sp o) a sp o 2 (fun t => dataBytes (t.reg d.toNat) 2) s
def execSt32 (d a : BitVec 5) (sp : BitVec 2) (o : BitVec 11) (s : State) : Out :=
  store (.st32 d a sp o) a sp o 4 (fun t => dataBytes (t.reg d.toNat) 4) s
def execSt64 (d a : BitVec 5) (sp : BitVec 2) (o : BitVec 11) (s : State) : Out :=
  store (.st64 d a sp o) a sp o 8 (fun t => dataBytes (t.reg d.toNat) 8) s

/-- `ldp`: s[d] holds bytes 0 to 7, s[d + 1] bytes 8 to 15 (R128). -/
def execLdp (d a : BitVec 5) (sp : BitVec 2) (o : BitVec 13) (s : State) : Out :=
  load (.ldp d a sp o) a sp o 16 (fun t bs => t.setGroup d.toNat [extend false (bs.take 8), extend false (bs.drop 8)]) s

/-- `stp` (R128). -/
def execStp (d a : BitVec 5) (sp : BitVec 2) (o : BitVec 13) (s : State) : Out :=
  store (.stp d a sp o) a sp o 16 (fun t => dataBytes (t.reg d.toNat) 8 ++ dataBytes (t.reg (d.toNat + 1)) 8) s

/-! ### Atomics (R130 to R132) -/

/-- The new value of an atomic, or none where it writes nothing (R130); all values of `w` bits. -/
def atomicNew (op w : Nat) (old b expected : Nat) : Option Nat :=
  match op with
  | 0 => some ((old + b) % 2 ^ w)
  | 1 => some (Nat.land old b)
  | 2 => some (Nat.lor old b)
  | 3 => some (Nat.xor old b)
  | 4 => some (if signed w old ≤ signed w b then old else b)
  | 5 => some (if signed w old ≤ signed w b then b else old)
  | 6 => some (min old b)
  | 7 => some (max old b)
  | 8 => some b
  | 9 => if old = expected then some b else none
  | 10 => none
  | _ => some b

/-- An atomic (R130): it reads and writes the end of the publication order. `at.st` publishes the
buffered stores first, `at.ld` acquires after. -/
def atomic (i : Instr) (op : Nat) (d a b : BitVec 5) (z sp : BitVec 2) (s0 : State) : Out :=
  issue i 0 s0 fun s t =>
    let n := if z.toNat = 0 then 4 else 8
    let ea := t.reg a.toNat
    if ea.toNat % n ≠ 0 then s.raise t i 0x03 ea
    else
      let acc := if op = 10 then Access.read else Access.atomic
      match s.check t sp.toNat acc ea n true with
      | (s1, .error m) => s1.missed t i acc m
      | (s1, .ok pa) =>
        let (s2, t2) := if op = 11 ∧ t.region.isNone then s1.publishAll t else (s1, t)
        s2.event s0 t i 3 op (word (s2.readNat pa n)) fun s3 v =>
          let old := v.toNat % 256 ^ n
          let s4 := match atomicNew op (8 * n) old ((t.reg b.toNat).toNat % 256 ^ n) ((t.reg d.toNat).toNat % 256 ^ n) with
            | some v => s3.publish (cellsAt pa (leBytes n v))
            | none => s3
          let t3 := if op = 10 then t2.acquire s4 else t2
          (s4.traceMem t n sp.toNat 2 ea).advance (t3.setReg d.toNat (word old)) i

def execAtAdd (d a b : BitVec 5) (z sp c : BitVec 2) (s : State) : Out := atomic (.atAdd d a b z sp c) 0 d a b z sp s
def execAtAnd (d a b : BitVec 5) (z sp c : BitVec 2) (s : State) : Out := atomic (.atAnd d a b z sp c) 1 d a b z sp s
def execAtOr (d a b : BitVec 5) (z sp c : BitVec 2) (s : State) : Out := atomic (.atOr d a b z sp c) 2 d a b z sp s
def execAtXor (d a b : BitVec 5) (z sp c : BitVec 2) (s : State) : Out := atomic (.atXor d a b z sp c) 3 d a b z sp s
def execAtMin (d a b : BitVec 5) (z sp c : BitVec 2) (s : State) : Out := atomic (.atMin d a b z sp c) 4 d a b z sp s
def execAtMax (d a b : BitVec 5) (z sp c : BitVec 2) (s : State) : Out := atomic (.atMax d a b z sp c) 5 d a b z sp s
def execAtMinu (d a b : BitVec 5) (z sp c : BitVec 2) (s : State) : Out := atomic (.atMinu d a b z sp c) 6 d a b z sp s
def execAtMaxu (d a b : BitVec 5) (z sp c : BitVec 2) (s : State) : Out := atomic (.atMaxu d a b z sp c) 7 d a b z sp s
def execAtSwap (d a b : BitVec 5) (z sp c : BitVec 2) (s : State) : Out := atomic (.atSwap d a b z sp c) 8 d a b z sp s
def execAtCas (d a b : BitVec 5) (z sp c : BitVec 2) (s : State) : Out := atomic (.atCas d a b z sp c) 9 d a b z sp s
def execAtLd (d a : BitVec 5) (z sp c : BitVec 2) (s : State) : Out := atomic (.atLd d a z sp c) 10 d a 0 z sp s
def execAtSt (d a b : BitVec 5) (z sp c : BitVec 2) (s : State) : Out := atomic (.atSt d a b z sp c) 11 d a b z sp s

/-! ### Phases (R133 to R136) -/

/-- A phase boundary: outside a region every buffered store is one publication; the snapshot moves
(R133, R125). Acceptance is immediate (log 6). -/
def boundary (i : Instr) (s : State) (t : Thread) : State :=
  let (s1, t1) := if t.region.isSome then (s, t) else s.publishAll t
  s1.advance (t1.phaseStart s1) i

/-- `phase.end` (R133). -/
def execPhaseEnd (s : State) : Out := issue .phaseEnd 0 s fun s t => boundary .phaseEnd s t

/-- `phase.sync` at its issue and at each wake: first every earlier engine command completes (R133). -/
def phaseSyncCore (s : State) (t : Thread) : State :=
  if s.outstanding t then s.waitAt t .phaseSync else boundary .phaseSync s t

/-- `phase.sync` (R133). -/
def execPhaseSync (s : State) : Out := issue .phaseSync 0 s phaseSyncCore

/-- Whether `pub` selects the store that a buffered byte belongs to (R134): by the store's virtual address as it stood at
issue, so that a store is published whole or not at all (R118). -/
def pubSelects (lo len : Word) (b : BufByte) : Bool :=
  decide (len = 0) || (b.isG && decide (lo.toNat ≤ b.va ∧ b.va < min (lo.toNat + len.toNat) (2 ^ 56)))

/-- `pub` (R134, R125). -/
def execPub (a b : BitVec 5) (s : State) : Out :=
  issue (.pub a b) 0 s fun s t =>
    if t.region.isSome then s.advance t (.pub a b)
    else
      let sel := pubSelects (t.reg a.toNat) (t.reg b.toNat)
      let (s1, _) := s.publishAll { t with buf := t.buf.filter sel }
      s1.advance { t with buf := t.buf.filter (!sel ·) } (.pub a b)

/-- `fence.e`: later commands wait for every command issued so far (R135). -/
def execFenceE (s : State) : Out :=
  issue .fenceE 0 s fun s t => s.advance { t with fence := s.nextCmd } .fenceE

/-- `pf` never traps and changes no value (R136); the fill of a line of HBM that it may cause is charged, and an address
that does not translate is dropped. -/
def execPf (a : BitVec 5) (s : State) : Out :=
  issue (.pf a) 0 s fun s t =>
    let ea := t.reg a.toNat
    let s1 := match s.translate (dieOf t.tile) t.part t.level false .read (ea.toNat / 64 * 64) 64 with
      | (_, .error _) => s
      | (_, .ok pa) => if regionOf pa = Region_.hbm then s.chargeMove (s.islandOf t.tile) t.bill t.tile pa 64 true else s
    (s1.traceMem t 64 0 3 ea).advance t (.pf a)

/-! ### Waiting on an address (R137) -/

/-- A wait form: checked and translated once; satisfied at issue, or Waiting on the word. -/
def waitWord (i : Instr) (a : BitVec 5) (sp z : BitVec 2) (o : BitVec 11) (s : State) : Out :=
  issue i 0 s fun s t =>
    let n := if z.toNat = 0 then 4 else 8
    let ea := effective t a o n
    if ea.toNat % n ≠ 0 then s.raise t i 0x03 ea
    else
      match s.check t sp.toNat .read ea n true with
      | (s1, .error m) => s1.missed t i .read m
      | (s1, .ok pa) =>
        let s2 := s1.traceMem t n sp.toNat 3 ea
        if waitHolds s2 t { instr := i, pa } then s2.advance (t.acquire s2) i else s2.waitAt t i pa

/-- A wake of a wait form: the condition held after some publication (R137). -/
def waitWordCore (i : Instr) (s : State) (t : Thread) : State :=
  match t.wait with
  | some w => if w.sat then s.advance (t.acquire s) i else s
  | none => s

def execWaitEq (d a : BitVec 5) (sp z : BitVec 2) (o : BitVec 11) (s : State) : Out := waitWord (.waitEq d a sp z o) a sp z o s
def execWaitNe (d a : BitVec 5) (sp z : BitVec 2) (o : BitVec 11) (s : State) : Out := waitWord (.waitNe d a sp z o) a sp z o s

/-! ### Spills (R138, R139) -/

/-- Whether a C-store column is allocated to the matrix unit (R272): by a live thread of the tile, or
by a matrix command still in flight. -/
def State.columnHeld (s : State) (tile c : Nat) : Bool :=
  let covers (cfg : Word) : Bool := decide (wbits cfg 19 9 ≤ c ∧ c < wbits cfg 19 9 + wbits cfg 28 10)
  s.threads.any (fun e => decide (e.2.tile = tile) && covers e.2.mxTcfg) ||
    (s.tile tile).mxQ.any fun k => covers k.cfg

/-- Any column of the byte range [lo, hi) is allocated (R139, R117). -/
def State.rangeHeld (s : State) (tile lo hi : Nat) : Bool :=
  (List.range (hi - lo)).any fun k => decide (k % 8 = 0) && s.columnHeld tile ((lo + k) / 512)

/-- `spill` (R139): `n` holds the count minus one (R35). Its words are one publication. -/
def execSpill (d : BitVec 5) (n : BitVec 6) (s : State) : Out :=
  issue (.spill d n) 0 s fun s t =>
    let cnt := n.toNat + 1
    let ptr := wbits t.spill 0 18
    let p : Int := (ptr : Int) - 8 * cnt
    if p < (wbits t.spill 18 18 : Nat) then s.raise t (.spill d n) 0x21 (wordInt p)
    else if s.rangeHeld t.tile p.toNat ptr then s.raise t (.spill d n) 0x05 (wordInt p)
    else
      let bs := (List.range cnt).flatMap fun k => leBytes 8 (t.reg (d.toNat + k)).toNat
      let s1 := (s.chargeThread t 0x04 (linesOf p.toNat (8 * cnt))).publish (cellsAt (storeBase t.tile 2 + p.toNat) bs)
      s1.advance { t with spill := (t.spill &&& ~~~(0x3FFFF : Word)) ||| word p.toNat } (.spill d n)

/-- `fill` (R139): every word is read at the end of the publication order, then written ascending. An uncorrectable error
among them is MEM_UE with the address of its block (R149). -/
def execFill (d : BitVec 5) (n : BitVec 6) (s : State) : Out :=
  issue (.fill d n) 0 s fun s t =>
    let cnt := n.toNat + 1
    let ptr := wbits t.spill 0 18
    let q := ptr + 8 * cnt
    if q > wbits t.spill 36 18 then s.raise t (.fill d n) 0x21 (word ptr)
    else if s.rangeHeld t.tile ptr q then s.raise t (.fill d n) 0x05 (word ptr)
    else
      let base := storeBase t.tile 2
      let s1 := s.chargeThread t 0x04 (linesOf ptr (8 * cnt))
      match (List.range cnt).find? fun k => s.bad (base + ptr + 8 * k) 8 with
      | some k => (s1.memUe (base + ptr + 8 * k) 0).missed t (.fill d n) .read (.cause 0x90 (ptr + 8 * k))
      | none =>
      let vs := (List.range cnt).map fun k => word (s.readNat (base + ptr + 8 * k) 8)
      s1.advance ({ t with spill := (t.spill &&& ~~~(0x3FFFF : Word)) ||| word q }.setGroup d.toNat vs) (.fill d n)

end Sys2Proof.Machine
end

