-- ==== Sys2Proof/Machine/Matrix.lean ====
section
/-! DEFINITION. The matrix unit (R261 to R285). -/

namespace Sys2Proof.Machine

/-! ### Configuration and windows -/

/-- Fields of a captured MX_TCFG (R272). -/
def mxMode (cfg : Word) : Nat := wbits cfg 0 3
def mxDefa (cfg : Word) : Nat := wbits cfg 3 8
def mxDefb (cfg : Word) : Nat := wbits cfg 11 8
def mxBase (cfg : Word) : Nat := wbits cfg 19 9
def mxCount (cfg : Word) : Nat := wbits cfg 28 10

/-- The A cell width, cycles per row, B layout, K per macro and output columns of a mode (R262). -/
def modeWidth (m : Nat) : Nat := match m with | 0 => 8 | 1 => 4 | 2 => 16 | 3 => 8 | _ => 4
def modeLayout (m : Nat) : Nat := match m with | 0 => 1 | 1 => 1 | 2 => 2 | _ => 3
def modeK (m : Nat) : Nat := if modeLayout m = 3 then 1024 else 256
def modeCols (m : Nat) : Nat := if modeLayout m = 2 then 256 else 512

/-- Fields of an accumulator window (R271). -/
def winRow (v : Word) : Nat := wbits v 0 7
def winRows (v : Word) : Nat := wbits v 7 8
def winCol (v : Word) : Nat := wbits v 15 9
def winCols (v : Word) : Nat := wbits v 24 10

/-- The Values entries of R271; `limit` is the most columns. -/
def winOk (v : Word) (pair : Bool) (limit : Nat) : Bool :=
  decide (wbits v 34 30 = 0 ∧ winRows v ≤ 128 ∧ winRow v + winRows v ≤ (if pair then 64 else 128) ∧
    winCols v ≤ limit ∧ winCol v + winCols v ≤ 512)

/-- Whether a window lies in the allocation (R270 step 3). -/
def winHeld (cfg v : Word) : Bool :=
  decide (mxBase cfg ≤ winCol v ∧ winCol v + winCols v ≤ mxBase cfg + mxCount cfg)

/-- The physical address of accumulator C[col][row] (R117). -/
def accPa (tile col row : Nat) : Nat := storeBase tile 2 + (col * 128 + row) * 4

/-- Whether C-store columns [b, b + n) meet a spill range of a thread (R138, R273). -/
def spillMeets (t : Thread) (b n : Nat) : Bool :=
  decide (b * 512 < wbits t.spill 36 18 ∧ wbits t.spill 18 18 < (b + n) * 512 ∧ wbits t.spill 18 18 < wbits t.spill 36 18 ∧ n ≠ 0)

/-- `mx.cfg`, at its issue and at each wake (R273): behind a fence the thread waits (R135). -/
def mxCfgCore (a : BitVec 5) (x : Half) (s : State) (t : Thread) : State :=
  let i := Instr.mxCfg a x
  let v := t.reg a.toNat
  let mode := xbits x 0 3
  let da := xbits x 3 8
  let db := xbits x 11 8
  let base := wbits v 0 9
  let n := wbits v 9 10
  let tern := decide (modeLayout mode = 3)
  let fmtOk := (decide (da = 0) || plainFormat da) && (decide (db = 0) || (if tern then decide (db = 14) else plainFormat db))
  let meets (o : Thread) : Bool :=
    (decide (o.num ≠ t.num ∧ n ≠ 0 ∧ base < mxBase o.mxTcfg + mxCount o.mxTcfg ∧ mxBase o.mxTcfg < base + n ∧ mxCount o.mxTcfg ≠ 0)) ||
      spillMeets o base n
  if !fmtOk then s.raiseFree t i 0x07
  else if wbits v 19 45 ≠ 0 ∨ base + n > 512 then s.raiseFree t i 0x06
  else if s.threads.any (fun e => decide (e.2.tile = t.tile) && meets e.2) then s.raiseFree t i 0x05
  else if !(s.fenceOk t.num t.fence) then s.waitAt t i
  else completeNow i s { t with mxTcfg := word (mode + da * 2 ^ 3 + db * 2 ^ 11 + base * 2 ^ 19 + n * 2 ^ 28) }

/-- `mx.cfg` (R273). -/
def execMxCfg (a : BitVec 5) (x : Half) (s : State) : Out := issue (.mxCfg a x) 0 s (mxCfgCore a x)

/-! ### Issue of the commands (R270, R274 to R278) -/

/-- `mx.ldb` (R274): groups G to G + n − 1 of a macro. A length that no image of them has is found when it is performed. -/
def mxLdb (i : Instr) (a b : BitVec 5) (m : BitVec 1) (g n : Nat) (s : State) : Out :=
  issue i 0 s fun s t =>
    let off := t.reg a.toNat
    let len := t.reg b.toNat
    if off.toNat % 64 ≠ 0 ∨ len.toNat < 64 ∨ len.toNat > 0x80000 ∨ g + n > 4 then s.raiseFree t i 0x06
    else if off.toNat + len.toNat > 0x80000 then s.raise t i 0x21 off
    else enqueue .mx i s t (.ldb off.toNat len.toNat m.toNat g n) [] []

def execMxLdb (a b : BitVec 5) (m : BitVec 1) (s : State) : Out := mxLdb (.mxLdb a b m) a b m 0 4 s
def execMxLdbGroups (a b : BitVec 5) (m : BitVec 1) (x : Half) (s : State) : Out :=
  mxLdb (.mxLdbGroups a b m x) a b m (xbits x 0 2) (xbits x 2 2 + 1) s

/-- `mx.run`, ring form, at its issue and at each wake (R275). -/
def mxRunRingCore (h : BitVec 4) (b : BitVec 5) (c : BitVec 1) (p : BitVec 2) (s : State) (t : Thread) : State :=
  let i := Instr.mxRunRing h b c p
  let hd := t.handle h.toNat
  let v := t.reg b.toNat
  if !hd.bound || decide (hd.role ≠ 0) then s.raiseFree t i 0x04
  else if !(winOk v (decide (p.toNat = 3)) (modeCols (mxMode t.mxTcfg))) then s.raiseFree t i 0x06
  else if winRows v = 0 ∨ winCols v = 0 then noopCommand .mx i (some h.toNat) s t
  else if !(winHeld t.mxTcfg v) then s.raiseFree t i 0x21
  else
    withSlots i s t h.toNat (winRows v) fun s t' =>
      enqueue .mx i s t' (.run (some h.toNat) 0 none v p.toNat (decide (c = 1))) [(h.toNat, winRows v)] [hd.l.toNat + hd.p]

def execMxRunRing (h : BitVec 4) (b : BitVec 5) (c : BitVec 1) (p : BitVec 2) (s : State) : Out :=
  issue (.mxRunRing h b c p) 0 s (mxRunRingCore h b c p)

/-- `mx.run`, A-store forms (R275): packed rows, or rows at a stride. The length of a row depends on its blocks' formats,
so one block of the last row, or of the first where the rows are packed, is what the issue holds against the end of the store;
a row that runs past it is SHAPE when it is performed (DESIGN CHOICE, log 127). -/
def mxRunStore (i : Instr) (a b : BitVec 5) (c : BitVec 1) (p : BitVec 2) (stride : Option Nat) (s : State) : Out :=
  issue i 0 s fun s t =>
    let v := t.reg b.toNat
    let base := (t.reg a.toNat).toNat
    if base / 2 ^ 20 ≠ 0 ∨ base % 64 ≠ 0 ∨ stride.any (fun n => decide (n % 64 ≠ 0)) then s.raiseFree t i 0x06
    else if !(winOk v (decide (p.toNat = 3)) (modeCols (mxMode t.mxTcfg))) then s.raiseFree t i 0x06
    else if winRows v = 0 ∨ winCols v = 0 then noopCommand .mx i none s t
    else if !(winHeld t.mxTcfg v) then s.raiseFree t i 0x21
    else if base + (winRows v - 1) * stride.getD 0 + 64 > 0x100000 then s.raise t i 0x21 (t.reg a.toNat)
    else enqueue .mx i s t (.run none base stride v p.toNat (decide (c = 1))) [] []

def execMxRunAstore (a b : BitVec 5) (c : BitVec 1) (p : BitVec 2) (s : State) : Out :=
  mxRunStore (.mxRunAstore a b c p) a b c p none s
def execMxRunStride (a b : BitVec 5) (c : BitVec 1) (p : BitVec 2) (x : Half) (s : State) : Out :=
  mxRunStore (.mxRunStride a b c p x) a b c p (some (xbits x 0 20)) s

/-- `mx.clr` (R276). -/
def execMxClr (b : BitVec 5) (s : State) : Out :=
  issue (.mxClr b) 0 s fun s t =>
    let v := t.reg b.toNat
    if !(winOk v false 512) then s.raiseFree t (.mxClr b) 0x06
    else if winRows v = 0 ∨ winCols v = 0 then noopCommand .mx (.mxClr b) none s t
    else if !(winHeld t.mxTcfg v) then s.raiseFree t (.mxClr b) 0x21
    else enqueue .mx (.mxClr b) s t (.clr v) [] []

/-- Blocks of a row written by `mx.out` (R277). -/
def outBlocks (fmt cols : Nat) : Nat := if fmtPerBlock fmt = 0 then 0 else (cols + fmtPerBlock fmt - 1) / fmtPerBlock fmt

/-- `mx.out`, ring form, at its issue and at each wake (R277). -/
def mxOutRingCore (i : Instr) (h : BitVec 4) (b : BitVec 5) (c : BitVec 1) (fmt : Nat) (scale : Int) (mode : Nat)
    (s : State) (t : Thread) : State :=
  let hd := t.handle h.toNat
  let v := t.reg b.toNat
  if !hd.bound || decide (hd.role ≠ 1 ∨ hd.nrep ≠ 0) then s.raiseFree t i 0x04
  else if !(winOk v false 512) then s.raiseFree t i 0x06
  else if winRows v = 0 ∨ winCols v = 0 then noopCommand .mx i (some h.toNat) s t
  else if !(winHeld t.mxTcfg v) then s.raiseFree t i 0x21
  else if !(plainFormat fmt) then s.raiseFree t i 0x07
  else if hd.slot64 < outBlocks fmt (winCols v) + 1 then s.raiseFree t i 0x06
  else
    withSlots i s t h.toNat (winRows v) fun s t' =>
      enqueue .mx i s t' (.out (some h.toNat) 0 v (decide (c = 1)) fmt scale mode) [(h.toNat, winRows v)] [hd.l.toNat + hd.p]

/-- `mx.out`, A-store form (R277). -/
def mxOutStore (i : Instr) (a b : BitVec 5) (c : BitVec 1) (fmt : Nat) (scale : Int) (mode : Nat) (s : State) : Out :=
  issue i 0 s fun s t =>
    let v := t.reg b.toNat
    let base := (t.reg a.toNat).toNat
    if base / 2 ^ 20 ≠ 0 ∨ base % 64 ≠ 0 then s.raiseFree t i 0x06
    else if !(winOk v false 512) then s.raiseFree t i 0x06
    else if winRows v = 0 ∨ winCols v = 0 then noopCommand .mx i none s t
    else if !(winHeld t.mxTcfg v) then s.raiseFree t i 0x21
    else if base + winRows v * 64 * outBlocks fmt (winCols v) > 0x100000 then s.raise t i 0x21 (t.reg a.toNat)
    else if !(plainFormat fmt) then s.raiseFree t i 0x07
    else enqueue .mx i s t (.out none base v (decide (c = 1)) fmt scale mode) [] []

/-- The format, scale and rounding of an extension word (R277). -/
def outFmt (x : Half) : Nat := xbits x 0 8
def outScale (x : Half) : Int := signed 8 (xbits x 8 8)
def outMode (x : Half) : Nat := xbits x 16 3

def execMxOutRing (h : BitVec 4) (b : BitVec 5) (c : BitVec 1) (s : State) : Out :=
  issue (.mxOutRing h b c) 0 s (mxOutRingCore (.mxOutRing h b c) h b c 1 0 0)
def execMxOutRingExt (h : BitVec 4) (b : BitVec 5) (c : BitVec 1) (x : Half) (s : State) : Out :=
  issue (.mxOutRingExt h b c x) 0 s (mxOutRingCore (.mxOutRingExt h b c x) h b c (outFmt x) (outScale x) (outMode x))
def execMxOutAstore (a b : BitVec 5) (c : BitVec 1) (s : State) : Out := mxOutStore (.mxOutAstore a b c) a b c 1 0 0 s
def execMxOutAstoreExt (a b : BitVec 5) (c : BitVec 1) (x : Half) (s : State) : Out :=
  mxOutStore (.mxOutAstoreExt a b c x) a b c (outFmt x) (outScale x) (outMode x) s

/-- A wait for the commands of one engine, and for what a fence before it holds it for, at its issue and at each wake (R135,
R278, R306). -/
def engineWaitCore (u : Unit_) (i : Instr) (s : State) (t : Thread) : State :=
  if ((s.tile t.tile).queue u).any (fun c => decide (c.name.thread = t.num)) || !(s.fenceOk t.num t.fence) then s.waitAt t i
  else completeNow i s (t.acquire s)

/-- `mx.wait` (R278). -/
def execMxWait (s : State) : Out := issue .mxWait 0 s (engineWaitCore .mx .mxWait)

/-! ### Conversion (R264, R265) -/

/-- The least exponent at which a finite non-zero element fits `w` bits after truncation (R264). -/
def leastExp (w : Nat) (neg : Bool) (m : Nat) (e : Int) : Int :=
  let l := Nat.log2 m + 1
  let top := if w ≥ l then m * 2 ^ (w - l) else m / 2 ^ (l - w)
  let low : Int := (l : Int) + e - w
  if neg && decide (top = 2 ^ (w - 1)) then low else low + 1

/-- Trunc(x × 2^(−e)) and whether bits are lost (R264). -/
def truncCell (neg : Bool) (m : Nat) (k e : Int) : Int × Bool :=
  let v := if k ≥ e then m * 2 ^ (k - e).toNat else m / 2 ^ (e - k).toNat
  let lost := if k ≥ e then false else decide (m % 2 ^ (e - k).toNat ≠ 0)
  (if neg then -(v : Int) else v, lost)

/-- AlignGroup (R264): cells, exponent, flags. -/
def alignGroup (w : Nat) (xs : List Ex) : List Int × Int × Flags :=
  let nv := xs.any fun x => match x with | .fin .. => false | _ => true
  let es := xs.filterMap fun x => match x with | .fin n m e => if m = 0 then none else some (leastExp w n m e) | _ => none
  match es with
  | [] => (xs.map fun _ => 0, 0, { nv })
  | e0 :: r =>
    let e := r.foldl max e0
    let cs := xs.map fun x => match x with
      | .fin n m k => if m = 0 then ((0 : Int), false, false) else let c := truncCell n m k e; (c.1, c.2, decide (c.1 = 0))
      | _ => (0, false, false)
    (cs.map Prod.fst, e, { nv, nx := cs.any (fun c => c.2.1), uf := cs.any (fun c => c.2.2) })

/-- The ternary rule (R265): elements with their T2 codes and scales. -/
def alignTernary (xs : List Elem) : List Int × Int × Flags :=
  let fm := xs.any fun x => decide (x.code = 2)
  let unit (x : Elem) : Int := match x.code with | 1 => 1 | 3 => -1 | _ => 0
  match (xs.filter fun x => decide (unit x ≠ 0)).map Elem.scale with
  | [] => (xs.map fun _ => 0, 0, { fm })
  | s0 :: r =>
    let e := r.foldl max s0
    let lost := xs.any fun x => decide (unit x ≠ 0 ∧ x.scale ≠ e)
    (xs.map fun x => if x.scale = e then unit x else 0, e, { fm, nx := lost, uf := lost })

/-! ### `mx.ldb` (R274) -/

/-- The cells of the group `g` replaced (R274): the entries ascend. -/
def Macro.setGroup (m : Macro) (g : Nat) (cells : List (Nat × Byte)) (scales : List (Nat × Int)) (layout : Nat) : Macro :=
  let lo := 64 * g * 512
  let hi := 64 * (g + 1) * 512
  { m with
    cells := (m.cells.filter fun c => decide (c.1 < lo)) ++ (cells.filter fun c => decide (c.2 ≠ 0)) ++ m.cells.filter fun c => decide (c.1 ≥ hi)
    scales := scales.foldl (fun l e => sparseSet 0 l e.1 e.2) m.scales
    modes := m.modes.setIfInBounds g layout }

def Tile.macro_ (tl : Tile) (m : Nat) : Macro := if m = 0 then tl.macro0 else tl.macro1
def Tile.setMacro (tl : Tile) (m : Nat) (v : Macro) : Tile := if m = 0 then { tl with macro0 := v } else { tl with macro1 := v }

/-- The rows of one group from the image (R267). -/
def imageRows (s : State) (pick : BitVec 16 → Option (Nat × Int)) (stop cols : Nat) : Nat → Nat → Except RowFault (List (List Elem) × Nat)
  | 0, pa => .ok ([], pa)
  | n + 1, pa =>
    match assembleRow s pick stop 0x06 64 pa cols with
    | .error e => .error e
    | .ok (row, pa1) =>
      match imageRows s pick stop cols n pa1 with
      | .error e => .error e
      | .ok (rows, pa2) => .ok (row :: rows, pa2)

/-- A group's cells and exponents by output column, from its K rows (R262, R264, R265). -/
def groupCells (layout g : Nat) (rows : List (List Elem)) : List (Nat × Byte) × List (Nat × Int) × Flags :=
  let arr := rows.map List.toArray
  let cols := if layout = 2 then 256 else 512
  let col (j : Nat) : List Elem := arr.map fun r => r.getD j ⟨1, 0, 0⟩
  let conv := ((List.range cols).map fun j =>
    if layout = 3 then alignTernary (col j) else alignGroup (if layout = 2 then 16 else 8) ((col j).map Elem.value)).toArray
  let cellsArr := conv.map fun c => c.1.toArray
  let cell (j k : Nat) : Int := (cellsArr.getD j #[]).getD k 0
  let tern (j k : Nat) : Nat := match cell j k with | 1 => 1 | -1 => 3 | _ => 0
  let byte (r c : Nat) : Byte :=
    match layout with
    | 1 => BitVec.ofInt 8 (cell c r)
    | 2 => if c % 2 = 0 then BitVec.ofInt 8 (cell (c / 2) r) else BitVec.ofInt 8 (cell (c / 2) r / 256)
    | _ => BitVec.ofNat 8 (tern c (4 * r) + 4 * tern c (4 * r + 1) + 16 * tern c (4 * r + 2) + 64 * tern c (4 * r + 3))
  let cells := (List.range 64).flatMap fun r => (List.range 512).map fun c => ((64 * g + r) * 512 + c, byte r c)
  let ex (c : Nat) : Int := (conv.getD (if layout = 2 then c / 2 else c) ([], 0, {})).2.1
  let scales := (List.range 512).map fun c => (c * 4 + g, ex c)
  (cells, scales, conv.foldl (fun f c => f.or c.2.2) {})

/-- A faulting group holds an unspecified mix, and its load mode is none (R274, log 11). -/
def spoilGroup (s : State) (m : Macro) (g : Nat) : Macro :=
  m.setGroup g ((List.range 32768).map fun k => (64 * g * 512 + k, Config.mixedCell s.fresh k))
    ((List.range 512).map fun c => (c * 4 + g, Config.mixedScale s.fresh c)) 0

/-- The charges of image blocks that have been read (R285). -/
def State.chargeImage (s : State) (c : Cmd) (blocks : Nat) : State := (s.chargeCmd c 0x28 blocks).chargeCmd c 0x05 blocks

/-- Loads `n` groups from `g` on (R274); each block of the image is charged as it is read (R285). -/
def ldbGroups (c : Cmd) (tile mac layout cols rows stop : Nat) (pick : BitVec 16 → Option (Nat × Int)) :
    Nat → Nat → Nat → State → State
  | 0, _, pa, s => if pa = stop then s.completed c else s.commandFaultFree .mx c 0x06
  | n + 1, g, pa, s =>
    match imageRows s pick stop cols rows pa with
    | .error (cause, at_) =>
      let tl := s.tile tile
      let s1 := { (s.setTile tile (tl.setMacro mac (spoilGroup s (tl.macro_ mac) g))) with fresh := s.fresh + 1 }
      (s1.chargeImage c ((at_ - pa) / 64)).storeFault .mx c 3 cause at_
    | .ok (rs, pa1) =>
      let (cells, scales, flags) := groupCells layout g rs
      let tl := s.tile tile
      let s1 := s.setTile tile { tl.setMacro mac ((tl.macro_ mac).setGroup g cells scales layout) with mxFlags := stick tl.mxFlags flags }
      ldbGroups c tile mac layout cols rows stop pick n (g + 1) pa1 (s1.chargeImage c ((pa1 - pa) / 64))

/-- Performs an `mx.ldb` (R274). -/
def performLdb (s : State) (c : Cmd) (img len mac g n : Nat) : State :=
  let tile := c.name.thread / 4
  let layout := modeLayout (mxMode c.cfg)
  let pick := if layout = 3 then imposeFmt 14 else followFmt plainFormat (mxDefb c.cfg)
  let tl := s.tile tile
  let s1 := s.setTile tile (tl.setMacro mac { tl.macro_ mac with owner := some (c.name.part, c.name.inst, c.name.thread) })
  let base := storeBase tile 3 + img
  ldbGroups c tile mac layout (if layout = 2 then 256 else 512) (if layout = 3 then 256 else 64) (base + len) pick n g base s1

/-! ### `mx.run` (R275) -/

/-- A B cell of a macro for K row `k` of an output column (R262); groups never loaded read zero. -/
def Macro.b (m : Macro) (layout col k : Nat) : Int :=
  let cell (r c : Nat) : Nat := (sparseGet (0 : Byte) m.cells (r * 512 + c)).toNat
  let g := if layout = 3 then k / 256 else k / 64
  if m.modes.toArray.getD g 0 = 0 then 0
  else match layout with
    | 1 => signed 8 (cell k col)
    | 2 => signed 16 (cell k (2 * col) + 256 * cell k (2 * col + 1))
    | _ => match bits (cell (k / 4) col) (2 * (k % 4)) 2 with | 1 => 1 | 3 => -1 | _ => 0

/-- The group exponent eB of an output column (R261, R262). -/
def Macro.eb (m : Macro) (layout col g : Nat) : Int :=
  if m.modes.toArray.getD g 0 = 0 then 0
  else sparseGet 0 m.scales ((if layout = 2 then 2 * col else col) * 4 + g)

/-- One K-chunk update of an accumulator (R80, R268): the terms as integers times powers of two. -/
def accumulate (old : Nat) (terms : List (Int × Int)) : Nat × Flags :=
  match decodeIeee 23 old with
  | .nan => (canonNan 23, {})
  | .inf _ => (old, {})
  | .fin n m e =>
    let t := exactSum (((if n then -(m : Int) else m), e) :: terms)
    if t.1 = 0 then (0, {}) else roundIeee 23 (.fin (decide (t.1 < 0)) t.1.natAbs t.2) 0

/-- A converted A row: cells and exponents of its 64-element groups (R264); none for a null row. -/
abbrev ARow := Option (List (Array Int × Int))

/-- The four terms of a chunk for an output column (R80). -/
def chunkTerms (mac : Macro) (layout col chunk goff : Nat) (row : List (Array Int × Int)) : List (Int × Int) :=
  (List.range 4).map fun g =>
    let a := row.getD (goff + 4 * chunk + g) (#[], 0)
    let k0 := if layout = 3 then 256 * chunk + 64 * g else 64 * g
    let p := (List.range 64).foldl (fun v r => v + a.1.getD r 0 * mac.b layout col (k0 + r)) (0 : Int)
    (p, a.2 + mac.eb layout col (if layout = 3 then chunk else g))

/-- What the updates of a row have done so far: the state, how many there were and of how many whole chunks, and the
accumulator in which an uncorrectable error stopped them (R269, R280). -/
structure Updates where
  s : State
  count : Nat := 0
  chunks : Nat := 0
  bad : Option Nat := none

/-- The first accumulator of a row's window that holds an uncorrectable error (R149). -/
def State.accBad (s : State) (tile : Nat) (win : Word) (row : Nat) : Option Nat :=
  ((List.range (winCols win)).map fun j => accPa tile (winCol win + j) row).find? fun pa => s.bad pa 4

/-- One chunk applied to every output column of a row, each update a publication (R268, R269): of a chunk that meets an
accumulator it cannot read nothing is published. -/
def applyChunk (c : Cmd) (win : Word) (mac : Macro) (layout chunk goff row : Nat) (fresh : Bool) (a : ARow) (u : Updates) : Updates :=
  let tile := c.name.thread / 4
  match u.bad.orElse fun _ => if fresh then none else u.s.accBad tile win row with
  | some pa => { u with bad := some pa }
  | none =>
    (List.range (winCols win)).foldl (fun u j =>
      let s := u.s
      let pa := accPa tile (winCol win + j) row
      let old := if fresh then 0 else s.readNat pa 4
      let r := match a with
        | none => if (decodeIeee 23 old).isNan then (canonNan 23, ({} : Flags)) else (old, {})
        | some gs => accumulate old (chunkTerms mac layout j chunk goff gs)
      let tl := s.tile tile
      { u with s := (s.setTile tile { tl with mxFlags := stick tl.mxFlags r.2 }).publish (cellsAt pa (leBytes 4 r.1)), count := u.count + 1 })
      { u with chunks := u.chunks + 1 }

/-- The macro cycles of the chunk updates that a row has made (R262, R285): a chunk takes its share of the row's cycles, and
a T4 row under CHAIN takes 8 on each of its two macros (DESIGN CHOICE, log 128: R262 gives 4, R281 8 for the row). -/
def rowCycles (mode place chunks : Nat) : Nat :=
  chunks * ((if mode = 4 ∧ place = 2 then 8 else modeWidth mode) / (modeK mode / 256))

/-- What `n` updates after `k` earlier ones add to a command's charge of one per 16 updates (R285, log 102). -/
def accCharge (k n : Nat) : Nat := (k + n + 15) / 16 - (k + 15) / 16

/-- One A row through the macros of a placement (R268, R275); false where a macro holds another layout. -/
def applyRow (c : Cmd) (win : Word) (place : Nat) (clr : Bool) (i : Nat) (a : ARow) (s : State) : Updates × Bool :=
  let tile := c.name.thread / 4
  let mode := mxMode c.cfg
  let layout := modeLayout mode
  let chunks := modeK mode / 256
  let macs := match place with | 0 => [0] | 1 => [1] | _ => [0, 1]
  macs.foldl (fun (acc : Updates × Bool) mi =>
    if !acc.2 || acc.1.bad.isSome then acc
    else
      let mac := (acc.1.s.tile tile).macro_ mi
      if (List.range 4).any fun g => decide (mac.modes.toArray.getD g 0 ≠ 0 ∧ mac.modes.toArray.getD g 0 ≠ layout) then (acc.1, false)
      else
        let row := winRow win + i + (if place = 3 ∧ mi = 1 then 64 else 0)
        let goff := if place = 2 ∧ mi = 1 then modeK mode / 64 else 0
        ((List.range chunks).foldl (fun u ch =>
          applyChunk c win mac layout ch goff row (clr && decide (ch = 0) && (decide (place ≠ 2) || decide (mi = 0))) a u)
          acc.1, true)) ({ s }, true)

/-- A converted row with its flags. -/
def convertRow (w : Nat) (row : List Elem) : List (Array Int × Int) × Flags :=
  let gs := (List.range (row.length / 64)).map fun g => alignGroup w (((row.drop (64 * g)).take 64).map Elem.value)
  (gs.map fun g => (g.1.toArray, g.2.1), gs.foldl (fun f g => f.or g.2.2) {})

/-- The rows of a run in order (R275); `pa` is where a packed row starts, `k` how many updates there have been. A fault stops
the run. A null slot uses no blocks, and only the bound of its COUNT and its M are tested (DESIGN CHOICE, log 129). -/
def runRows (c : Cmd) (h : Option Nat) (base : Nat) (stride : Option Nat) (win : Word) (place : Nat) (clr : Bool) :
    Nat → Nat → Nat → Nat → State → State
  | 0, _, _, _, s => s.completed c
  | n + 1, i, pa, k, s =>
    let tile := c.name.thread / 4
    let mode := mxMode c.cfg
    let count := if place = 2 then 2 * modeK mode else modeK mode
    let pick := followFmt plainFormat (mxDefa c.cfg)
    let hd := ((s.thread? c.name.thread).map fun t => t.handle (h.getD 0)).getD {}
    let slotPa := hd.slotPa tile (c.space0.getD 0 0 + i)
    let trailer := slotPa + hd.slotB - 64
    let line := leNat (s.readBytes trailer 4)
    let cnt := bits line 0 13
    let null := h.isSome && bit line 20
    let start := match h, stride with
      | some _, _ => slotPa
      | none, some st => storeBase tile 1 + base + i * st
      | none, none => pa
    let stop := if h.isSome then trailer else storeBase tile 1 + 0x100000
    if h.isSome && s.bad trailer 64 then s.storeFault .mx c 1 0x90 trailer
    else if h.isSome && (bit line 21 || decide (cnt > 16 * (hd.slot64 - 1))) then s.commandFault .mx c 0x07 (word (slotPa - storeBase tile 1))
    else
      let row := if null then .ok ([], start) else assembleRow s pick stop (if h.isSome then 0x07 else 0x06) 2048 start count
      match row with
      | .error (cause, at_) => s.storeFault .mx c 1 cause at_
      | .ok (row, next) =>
        if h.isSome && !null && decide (cnt ≠ (next - start) / 4) then s.commandFault .mx c 0x07 (word (slotPa - storeBase tile 1))
        else
          let (gs, flags) := convertRow (modeWidth mode) row
          let tl := s.tile tile
          let s1 := (s.setTile tile { tl with
            mxFlags := stick tl.mxFlags flags
            rowCells := gs.flatMap fun g => g.1.toList
            rowExps := gs.map Prod.snd }).chargeCmd c 0x03 ((next - start) / 64 + if h.isSome then 1 else 0)
          let r := applyRow c win place clr i (if null then none else some gs) s1
          let s2 := (r.1.s.chargeCmd c 0x2A (accCharge k r.1.count)).chargeCmd c 0x29 (rowCycles mode place r.1.chunks)
          match r.1.bad with
          | some pa => s2.storeFault .mx c 2 0x90 pa
          | none =>
            if !r.2 then s2.commandFaultFree .mx c 0x04
            else runRows c h base stride win place clr n (i + 1) next (k + r.1.count) s2

/-! ### `mx.clr` and `mx.out` (R276, R277) -/

/-- Clears a window row by row, each word a publication (R276). -/
def performClr (s : State) (c : Cmd) (win : Word) : State :=
  let tile := c.name.thread / 4
  let s1 := (List.range (winRows win)).foldl (fun s i =>
    (List.range (winCols win)).foldl (fun s j =>
      s.publish (cellsAt (accPa tile (winCol win + j) (winRow win + i)) (zeros 4))) s) s
  (s1.chargeCmd c 0x2A ((winRows win * winCols win + 15) / 16)).completed c

/-- One row written out as described blocks (R277, R62), with the charges of the lines it writes (R285). -/
def outRow (c : Cmd) (dst : Nat) (win : Word) (clr : Bool) (fmt : Nat) (scale : Int) (mode i : Nat)
    (trailer : Option (Nat × Nat)) (s : State) : State :=
  let tile := c.name.thread / 4
  let n := fmtPerBlock fmt
  let blocks := outBlocks fmt (winCols win)
  let acc (j : Nat) : Nat := accPa tile (winCol win + j) (winRow win + i)
  let vs := (List.range (winCols win)).map fun j =>
    roundFmt fmt 0 ((decodeIeee 23 (s.readNat (acc j) 4)).scale (-scale)) mode
  let flags := vs.foldl (fun f v => f.or v.2) ({} : Flags)
  let tl := s.tile tile
  let s1 := s.setTile tile { tl with mxFlags := stick tl.mxFlags flags }
  let wrote (s : State) (pa : Nat) : State := s.chargeMove (s.islandOf tile) c.name.acct tile pa 64 false
  let s2 := (List.range blocks).foldl (fun s b =>
    (wrote s (dst + 64 * b)).publish (cellsAt (dst + 64 * b) (packBlock fmt (((vs.map Prod.fst).drop (n * b)).take n)))
      [((dst + 64 * b) / 64, descOf fmt scale)]) s1
  let s3 := match trailer with
    | some (pa, e) => (wrote s2 pa).publish (cellsAt pa (leBytes 4 (trailerBits (16 * blocks) e) ++ zeros 60))
    | none => s2
  let s4 := if clr then s3.publish ((List.range (winCols win)).flatMap fun j => cellsAt (acc j) (zeros 4)) else s3
  s4.chargeCmd c 0x2B blocks
where
  /-- A trailer word with N = 0, T = 0 and M = 0 (R187). -/
  trailerBits (count e : Nat) : Nat := count + e * 2 ^ 13

/-- The rows of an `mx.out` in order (R277); an accumulator with an uncorrectable error stops it before its row (R280). -/
def outRows (c : Cmd) (h : Option Nat) (base : Nat) (win : Word) (clr : Bool) (fmt : Nat) (scale : Int) (mode : Nat) :
    Nat → Nat → State → State
  | 0, _, s => s.completed c
  | n + 1, i, s =>
    let tile := c.name.thread / 4
    let hd := ((s.thread? c.name.thread).map fun t => t.handle (h.getD 0)).getD {}
    let slotPa := hd.slotPa tile (c.space0.getD 0 0 + i)
    let dst := if h.isSome then slotPa else storeBase tile 1 + base + i * 64 * outBlocks fmt (winCols win)
    let tr := if h.isSome then some (slotPa + hd.slotB - 64, if n = 0 then 2 else 1) else none
    match s.accBad tile win (winRow win + i) with
    | some pa => s.storeFault .mx c 2 0x90 pa
    | none => outRows c h base win clr fmt scale mode n (i + 1) (outRow c dst win clr fmt scale mode i tr s)

/-- The matrix unit performs a thread's next command whole (R279, log 10). -/
def performMatrix (s : State) (c : Cmd) : State :=
  match c.op with
  | .ldb img len m g n => performLdb s c img len m g n
  | .run h base stride win place clr =>
    runRows c h base stride win place clr (winRows win) 0 (storeBase (c.name.thread / 4) 1 + base) 0 s
  | .clr win => performClr s c win
  | .out h base win clr fmt scale mode => outRows c h base win clr fmt scale mode (winRows win) 0 s
  | .noop _ => s.completed c
  | _ => s

def execMxCommandPerform (tile thread : Nat) (s : State) : Out := perform .mx tile thread s performMatrix

end Sys2Proof.Machine
end

