-- ==== Sys2Proof/Machine/Ports.lean ====
section
/-! DEFINITION. Tokens in a page (R154 to R156, R184), its output ports (R198 to R206) and the room
tests of the firing rule (R155, R157). -/

namespace Sys2Proof.Machine

/-- The live thread a page instance belongs to (R241). -/
def State.pageThread (s : State) (p : Page) : Option Thread :=
  (s.threads.find? fun e => decide (e.2.part = p.part ∧ e.2.inst = p.inst ∧ e.2.ordinal = p.ordinal)).map Prod.snd

/-- The account a page's work goes to: its instance's (R184, R219). -/
def State.pageAcct (s : State) (p : Page) : Nat :=
  match s.inst? p.part p.inst with
  | some i => i.acct
  | none => p.name.acct

/-- A charge of a page's work at its region's tile (R184, R219). -/
def State.chargePage (s : State) (p : Page) (cls n : Nat) : State :=
  s.charge (s.islandOf (p.region.getD 0)) (s.pageAcct p) cls n

/-- The thread of a page if it has a firing open (R200). -/
def State.firingThread (s : State) (p : Page) : Option Thread :=
  (s.pageThread p).filter fun t => match t.region with | some r => !r.isTask | none => false

/-- Whether the ports of a page are open: a firing is open, and on a monitored page its `fire.end`
has not issued (R200, R429); or the page runs a marker firing (R251). -/
def State.portsOpen (s : State) (p : Page) : Bool :=
  p.st.aligning || match s.firingThread p with
  | none => false
  | some t => !(pgMon p.image) || !(t.wait.any fun w => decide (w.instr = .fireEnd))

/-! ### Destinations and delivery -/

/-- The destination of a consumer field for a producer at a slot; none where it names no consumer (R44). -/
def destOf (slot c : Nat) : Option Dest :=
  if c = 0x1FF then none
  else if c < 256 then some (.queue (c / 4) (c % 4))
  else
    let ix := c / 4 % 64
    if ix < 16 then some (.port ix)
    else if ix < 24 then some (.rsu (ix - 16) (slot % 8))
    else if ix < 32 then some (.port (ix - 16))
    else some .discard

def Page.queue (p : Page) (slot q : Nat) : Queue := tabGet {} p.st.queues (queueKey slot q)
def Page.port (p : Page) (e : Nat) : Port := tabGet {} p.st.ports e
def Page.elem (p : Page) (slot : Nat) : ElemReg := tabGet {} p.st.elems slot
def Page.rsu (p : Page) (row : Nat) : Rsu := tabGet {} p.st.rsus row
def Page.ag (p : Page) (slot : Nat) : Ag := tabGet {} p.st.ags slot
def Page.setQueue (p : Page) (slot q : Nat) (v : Queue) : Page := { p with st := { p.st with queues := tabSet p.st.queues (queueKey slot q) v } }
def Page.setPort (p : Page) (e : Nat) (v : Port) : Page := { p with st := { p.st with ports := tabSet p.st.ports e v } }
def Page.setElem (p : Page) (slot : Nat) (v : ElemReg) : Page := { p with st := { p.st with elems := tabSet p.st.elems slot v } }
def Page.setRsu (p : Page) (row : Nat) (v : Rsu) : Page := { p with st := { p.st with rsus := tabSet p.st.rsus row v } }
def Page.setAg (p : Page) (slot : Nat) (v : Ag) : Page := { p with st := { p.st with ags := tabSet p.st.ags slot v } }

/-- Tokens on their way to a destination: in flight, or held by a producer for its turn (R155, R156). -/
def Page.toward (p : Page) (d : Dest) : Nat :=
  (p.st.flight.filter fun f => decide (f.dest = d)).length + (p.st.held.filter fun f => decide (f.dest = d)).length

/-- A token leaves its producer (R154, R156): toward a queue of several producers it waits for its
turn; the discard target takes it. -/
def Page.send (p : Page) (producer : Nat) (tok : Token) (d : Dest) : Page :=
  let fly : Page := { p with st := { p.st with flight := p.st.flight ++ [⟨producer, d, tok⟩] } }
  match d with
  | .discard => p
  | .queue slot q =>
    let prods := producersOf p.image slot q
    if prods.length ≤ 1 then fly
    else
      let qu := p.queue slot q
      let waits := p.st.held.any fun f => decide (f.producer = producer ∧ f.dest = d)
      if !waits && decide (prods[qu.turn]? = some producer) then
        fly.setQueue slot q { qu with turn := (qu.turn + 1) % prods.length }
      else { p with st := { p.st with held := p.st.held ++ [⟨producer, d, tok⟩] } }
  | _ => fly

/-- Tokens sent in order to one consumer field. -/
def Page.sendAll (p : Page) (producer slot c : Nat) (toks : List Token) : Page :=
  match destOf slot c with
  | none => p
  | some d => toks.foldl (fun p k => p.send producer k d) p

/-- Whether a bus delivery turns from a row bus to a column bus (R154); an RSU stands in column 8. -/
def turnsBus (producer slot : Nat) : Bool :=
  let row := if producer ≥ 64 then producer - 64 else producer / 8
  decide (row ≠ slot / 8) && (decide (producer ≥ 64) || decide (producer % 8 ≠ slot % 8))

/-- Whether an input queue of a slot is a back edge of the page (R160): positions in half columns. -/
def isBackEdge (im : List Byte) (slot q : Nat) : Bool :=
  (producersOf im slot q).any fun j => decide ((if j < 64 then 2 * j else 16 * (j - 64) + 15) ≥ 2 * slot)

/-! ### Output ports (R202 to R204) -/

/-- How many slots a port must open for tokens in order, from its open slot's N, T and cursor (R202). -/
def slotsNeeded (isOpen n : Bool) (tag cursor tps : Nat) : List Token → Nat
  | [] => 0
  | k :: r =>
    if k.m then 1 + slotsNeeded false false 0 0 tps r
    else
      let fits := isOpen && decide (k.n = n ∧ k.t = tag)
      let c := (if fits then cursor else 0) + 1
      (if fits then 0 else 1) + slotsNeeded (decide (k.e = 0 ∧ c ≠ tps)) k.n k.t c tps r

/-- Whether a port can open every slot that its unwritten tokens and these may need; none where the
counters break R188 or cannot be read (R157 condition 3, R202). `late`: the tokens are left of a firing that the element made
while the port was open, which `fire.end` waits for (R429). -/
def State.portRoom (s : State) (p : Page) (e : Nat) (new : List Token) (late : Bool := false) : Option Bool :=
  match s.pageThread p with
  | none => some false
  | some t =>
    if !(if late then p.st.aligning || (s.firingThread p).isSome else s.portsOpen p) then some false
    else
      let pt := p.port e
      let waiting := pt.held ++ (p.st.flight.filter fun f => decide (f.dest = .port e)).map Flight.tok
      let n := slotsNeeded pt.isOpen pt.last.n pt.last.t pt.cursor (portTps p.image e) (waiting ++ new)
      (s.availTo? t.tile (t.handle (portHandle p.image e))).map fun av => decide (n ≤ av) && pt.held.isEmpty

/-- Physical addresses of a byte of a slot, in each tile that holds the slot: every consumer of a
replicate ring (R203), otherwise the one slot window (R186). -/
def Handle.slotPas (h : Handle) (tile v off : Nat) : List Nat :=
  (h.slotPa tile v + off) :: if h.role = 1 ∧ h.peerKind = 0 then
    (List.range h.nrep).map fun k => apertureBase (h.repTile (k + 1)) + h.base + v % h.depth * h.slotB + off
  else []

/-- The stop extension of R206. -/
def stopExt (c0 c1 c2 c3 addr slot ix : Nat) (ag : Bool) (tokIx : Nat) (off : Int) : List Byte :=
  leBytes 4 c0 ++ leBytes 4 c1 ++ leBytes 4 c2 ++ leBytes 4 c3 ++ leBytes 8 (addr % 2 ^ 56) ++
  leBytes 8 (slot + ix * 64 + (if ag then 1024 else 0) + tokIx % 8192 * 2048 + (off % 2 ^ 32).toNat * 2 ^ 24)

/-- The A-store offset of the slot of a counter value. -/
def Handle.slotOffset (h : Handle) (v : Nat) : Nat := h.base + v % h.depth * h.slotB

/-- A port fault aborts the firing of the page's thread (R206). -/
def State.portFault (s : State) (t : Thread) (p : Page) (e cause addr tokIx : Nat) : State :=
  s.abortWithRecord t cause 0 (word addr) p.name (stopExt 0 0 0 0 addr (portSlot p.image e) e false tokIx 0)

/-- The control block of a port's end cannot be read, which is MEM_UE (R149), its counters break R188, which is SHAPE, or its
slots reach what is not the partition's, which is PROT (R370). -/
def State.portBroken (s : State) (t : Thread) (p : Page) (e addr tokIx : Nat) : State :=
  let h := t.handle (portHandle p.image e)
  if s.blockBad t.tile h then (s.memUe (apertureBase t.tile + h.lrcb) 0).portFault t p e 0x90 addr tokIx
  else s.portFault t p e (if (s.avail? t.tile h).isNone then 0x06 else 0x21) addr tokIx

/-- A RATE fault of a port (R238): over the page port's declared count, or over its handle's. -/
def State.portRate (s : State) (t : Thread) (p : Page) (e : Nat) (onPort : Bool) (declared observed addr tokIx : Nat) : State :=
  s.rateAbort t p.name (if onPort then e else portHandle p.image e) onPort true declared observed
    (if onPort then p.index else 0) (stopExt 0 0 0 0 addr (portSlot p.image e) e false tokIx 0) (some (word addr))

/-- The declared count of a port in the open firing's phase, none where the page is not monitored (R237). -/
def portDeclared (p : Page) (t : Thread) (e : Nat) : Option Nat :=
  if pgMon p.image && t.region.isSome then some (pgCount p.image e (((t.region.map Region.phase).getD 0) % pgPhases p.image)) else none

/-- A trailer's first word (R187). -/
def trailerWord (count e t : Nat) (n m : Bool) : Nat :=
  count + e * 2 ^ 13 + t * 2 ^ 15 + (if n then 2 ^ 20 else 0) + (if m then 2 ^ 21 else 0)

/-- Bytes at an offset of a slot, published in every tile that holds it (R202, R203), with the charges of the lines they
touch (R219). -/
def State.writeSlot (s : State) (p : Page) (t : Thread) (h : Handle) (v off : Nat) (bs : List Byte) : State :=
  (h.slotPas t.tile v off).foldl
    (fun s pa => (s.chargeMove (s.islandOf (p.region.getD 0)) (s.pageAcct p) (p.region.getD 0) pa bs.length false).publish (cellsAt pa bs))
    { s with pubBy := some (p.part, p.inst, p.ordinal) }

/-- The open slot of a port is closed with its trailer (R202). -/
def State.closeSlot (s : State) (p : Page) (t : Thread) (e rank : Nat) : State × Page :=
  let pt := p.port e
  let h := t.handle (portHandle p.image e)
  let tr := leBytes 4 (trailerWord pt.cursor rank pt.last.t pt.last.n false) ++ zeros 60
  (s.writeSlot p t h pt.slot (h.slotB - 64) tr,
    p.setPort e { pt with isOpen := false, cursor := 0, finished := pt.finished + 1 })

/-- What a port did with a token. -/
inductive Accept where
  | written (s : State)
  | held (s : State)
  | faulted (s : State)

/-- A slot is taken at Head for a port: counted against the handle's rate unless it holds a marker (R190, R237). -/
def Thread.takeFor (t : Thread) (hn : Nat) (counted : Bool) : Thread :=
  let h := t.handle hn
  let t1 := t.setHandle hn { h with p := h.p + 1 }
  if counted then t1.countTaken hn 1 else t1

/-- Whether an input port or an `agl` run of a page has a token ready (R395). -/
def State.tokenReady (s : State) (p : Page) : Bool :=
  (p.st.ags.any fun e => !e.2.toks.isEmpty && decide (elemWord p.image e.1 / 16777216 = 0x50)) ||
    match s.pageThread p with
    | none => false
    | some t => (List.range (pgPorts p.image)).any fun e => decide (portDir p.image e = 0) &&
        ((p.port e).isOpen || (s.avail? t.tile (t.handle (portHandle p.image e))).any fun n => decide (n ≥ 1))

/-- Something fires in a page (R395). -/
def State.fires (s : State) (p : Page) : Page :=
  { p with lastFire := s.dev.elapsed, phase := { p.phase with
      moved := true, fires := p.phase.fires + 1, ready := p.phase.ready + if s.tokenReady p then 1 else 0 } }

/-- A token or write leaves a page through a port or an AG: with the first one the FILL cycles are over (R395). -/
def Page.leaves (p : Page) : Page :=
  { p with phase := { p.phase with
      moved := true, left := true, fires := (if p.phase.left then p.phase.fires else 0) + 1, ready := if p.phase.left then p.phase.ready else 0 } }

/-- An output port accepts a token (R202, R204): declared counts first, then the tag, then room. -/
def State.portAccept (s : State) (p : Page) (t : Thread) (e : Nat) (k : Token) : Accept :=
  let im := p.image
  let hn := portHandle im e
  let pt := p.port e
  let h := t.handle hn
  let head := h.l.toNat + h.p
  if k.m then
    let (s1, p1) := if pt.isOpen then s.closeSlot p t e 0 else (s, p)
    match s1.availTo? t.tile h with
    | none => .faulted ((s1.setPage p1).portBroken t p1 e (h.slotOffset head) 0)
    | some 0 => .held (s1.setPage p1)
    | some _ =>
      let s2 := (s1.writeSlot p1 t h head 0 (leBytes 4 k.payload.toNat)).writeSlot p1 t h head (h.slotB - 64)
        (leBytes 4 (trailerWord 0 0 0 false true) ++ zeros 60)
      let pt1 := p1.port e
      .written (((s2.chargePage p1 0x1B 1).chargePage p1 0x22 1).setPage (p1.setPort e { pt1 with finished := pt1.finished + 1, finishedMark := pt1.finishedMark + 1 }).leaves
        |>.setThread (t.takeFor hn false))
  else
    let fits := pt.isOpen && decide (k.n = pt.last.n ∧ k.t = pt.last.t)
    let addr := if fits then h.slotOffset pt.slot else h.slotOffset head
    let ix := if fits then pt.cursor else 0
    let tooMany := match portDeclared p t e with | some c => decide (pt.count + 1 > c) | none => false
    if tooMany then .faulted (s.portRate t p e true ((portDeclared p t e).getD 0) (pt.count + 1) addr ix)
    else if !fits && !(s.takeOk t hn 1) then
      .faulted (s.portRate t p e false ((s.declared t hn).getD 0) (((t.region.map fun r => r.taken.toArray.getD hn 0).getD 0) + 1) addr ix)
    else if portTchk im e && !k.n && decide (k.t ≠ portTag im e) then .faulted (s.portFault t p e 0x43 addr ix)
    else
      let (s1, p1) := if pt.isOpen && !fits then s.closeSlot p t e 0 else (s, p)
      let room := if fits then some 1 else s1.availTo? t.tile h
      match room with
      | none => .faulted ((s1.setPage p1).portBroken t p1 e addr ix)
      | some 0 => .held (s1.setPage p1)
      | some _ =>
        let t1 := if fits then t else t.takeFor hn true
        let v := if fits then pt.slot else head
        let s2 := s1.writeSlot p1 t h v (4 * ix) (leBytes 4 (if k.n then 0 else k.payload.toNat))
        let pt1 := p1.port e
        let p2 := p1.setPort e { pt1 with isOpen := true, slot := v, cursor := ix + 1, last := k, count := pt1.count + 1 }
        let s3 := s2.chargePage p2 0x1B 1
        let (s4, p3) := if k.e ≠ 0 ∨ ix + 1 = portTps im e then s3.closeSlot p2 t1 e k.e else (s3, p2)
        .written ((s4.setPage p3.leaves).setThread t1)

/-- A token is delivered to its port, charged HOP once (R184): it is written, or held while no slot is available, an
earlier token is held, or no firing is open (R200, R202). -/
def State.portArrive (s0 : State) (p : Page) (e : Nat) (k : Token) : State :=
  let s := s0.chargePage p 0x18 1
  let hold (s : State) : State :=
    match s.page? p.id with
    | none => s
    | some q => s.setPage (q.setPort e { q.port e with held := (q.port e).held ++ [k] })
  match s.pageThread p with
  | none => hold s
  | some t =>
    if !(p.port e).held.isEmpty || (!p.st.aligning && (s.firingThread p).isNone) then hold s
    else
      match s.portAccept p t e k with
      | .written s1 => s1
      | .held s1 => hold s1
      | .faulted s1 => s1

/-- The first held token of a port is written once a slot is available (R202). -/
def State.portRetry (s : State) (p : Page) (e : Nat) : State :=
  match (p.port e).held, s.pageThread p with
  | k :: rest, some t =>
    if !p.st.aligning && (s.firingThread p).isNone then s
    else
      match s.portAccept (p.setPort e { p.port e with held := rest }) t e k with
      | .written s1 => s1
      | .held _ => s
      | .faulted s1 => s1
  | _, _ => s

/-! ### Arrival -/

/-- Whether the token `k` in the page's flight list may arrive: none before it has the same destination
(R154, R156). -/
def Page.mayArrive (p : Page) (k : Nat) : Bool :=
  match p.st.flight[k]? with
  | none => false
  | some f => (p.st.flight.take k).all fun g => decide (g.dest ≠ f.dest)

/-- A token enters a landing buffer (R155); one that reaches the back edge of an aligned element before
that queue's marker is added to the element's record (R160). -/
def Page.land (p : Page) (slot q : Nat) (k : Token) : Page :=
  let qu := p.queue slot q
  let p1 := p.setQueue slot q { qu with toks := qu.toks ++ [k] }
  let recs := p.st.marked.contains slot && isBackEdge p.image slot q && !k.m &&
    !(p.st.backDone.contains (slot, q)) && !(qu.toks.any Token.m)
  if recs then { p1 with st := { p1.st with backRecs := p1.st.backRecs ++ [(queueKey slot q, k)] } } else p1

/-- The token `k` in flight reaches its consumer, charged as R184 states. -/
def State.arrive (s : State) (p : Page) (k : Nat) : State :=
  match p.st.flight[k]? with
  | none => s
  | some f =>
    if !(p.mayArrive k) then s
    else
      let p1 : Page := { p with st := { p.st with flight := p.st.flight.eraseIdx k } }
      match f.dest with
      | .queue slot q => (s.chargePage p (if turnsBus f.producer slot then 0x19 else 0x18) 1).setPage (p1.land slot q f.tok)
      | .rsu row col =>
        let r := p1.rsu row
        (s.chargePage p 0x18 1).setPage (p1.setRsu row { r with inputs := tabSet r.inputs col (tabGet [] r.inputs col ++ [f.tok]) })
      | .port e => (s.setPage p1).portArrive p1 e f.tok
      | .discard => s.setPage p1

/-! ### Room (R155, R157) -/

/-- Whether every consumer field has room for tokens to it: fewer than 12 at an element queue, fewer
than 4 at an RSU column, and the port's slots; none where a port's counters break R188 or cannot be read. `late` as for a
port. -/
def State.roomFor (s : State) (p : Page) (slot : Nat) (outs : List (Nat × Nat × List Token)) (late : Bool := false) : Option Bool :=
  outs.foldl (fun acc o =>
    match acc, destOf slot o.1 with
    | none, _ => none
    | some false, _ => some false
    | some true, none => some true
    | some true, some (.queue sl q) =>
      some (decide ((p.queue sl q).toks.length + p.toward (.queue sl q) + max 1 o.2.1 ≤ 12))
    | some true, some (.rsu r c) =>
      some (decide ((tabGet [] (p.rsu r).inputs c).length + p.toward (.rsu r c) + max 1 o.2.1 ≤ 4))
    | some true, some (.port e) => s.portRoom p e o.2.2 late
    | some true, some .discard => some true) (some true)

/-- The ports an element's consumer fields name. -/
def portsNamed (slot : Nat) (cs : List Nat) : List Nat :=
  cs.filterMap fun c => match destOf slot c with | some (.port e) => some e | _ => none

/-- Whether an element is busy: repeating, emitting its second token, holding a token for its turn, or
with an output port that holds a token (R157). -/
def Page.busy (p : Page) (slot : Nat) (cs : List Nat) : Bool :=
  let r := p.elem slot
  decide (r.dupLeft ≠ 0) || r.second.isSome || (p.ag slot).busy ||
    p.st.held.any (fun f => decide (f.producer = slot)) ||
    (portsNamed slot cs).any fun e => !(p.port e).held.isEmpty

/-- A port whose end cannot be used faults as its serving element reads its counters (R149, R188, R202, R370). -/
def State.brokenPort (s : State) (p : Page) (slot : Nat) (cs : List Nat) : State :=
  match s.firingThread p with
  | none => s
  | some t =>
    match (portsNamed slot cs).find? fun e => (s.portRoom p e []).isNone with
    | none => s
    | some e =>
      let h := t.handle (portHandle p.image e)
      s.portBroken t p e (h.slotOffset (h.l.toNat + h.p)) 0

end Sys2Proof.Machine
end

