-- ==== Sys2Proof/Machine/Elements.lean ====
section
/-! DEFINITION. The compute element operations (R157 to R176). -/

namespace Sys2Proof.Machine

/-- A source of an operand: an operand queue or a constant of the slot (R158). -/
inductive Src where
  | q (n : Nat)
  | k (n : Nat)
  deriving DecidableEq, Repr

/-- The sources of an operation of `arity` operands: A is `q0`, B by the selector, C is `q2` or, when
B is `q2`, `k2` (R158). -/
def sources (arity : Nat) (sel : BitVec 2) : List Src :=
  let b : Src := match sel.toNat with | 0 => .q 1 | 1 => .k 0 | 2 => .k 1 | _ => .q 2
  let c : Src := if sel.toNat = 3 then .k 2 else .q 2
  [Src.q 0, b, c].take arity

/-- The token an operand reads, none where its queue has no token or a marker at its head (R157, R158). -/
def operand (p : Page) (slot : Nat) : Src → Option Token
  | .q n => ((p.queue slot n).toks.head?).filter fun k => !k.m
  | .k n => some { payload := elemConst p.image slot n }

/-- The operands in order, none where one is missing. -/
def operands (p : Page) (slot : Nat) : List Src → Option (List Token)
  | [] => some []
  | x :: r =>
    match operand p slot x, operands p slot r with
    | some k, some ks => some (k :: ks)
    | _, _ => none

/-- One token leaves the head of each queue an operation reads (R157). -/
def Page.consume (p : Page) (slot : Nat) : List Src → Page
  | [] => p
  | .k _ :: r => p.consume slot r
  | .q n :: r =>
    let qu := p.queue slot n
    (p.setQueue slot n { qu with toks := qu.toks.tail }).consume slot r

/-- What a firing does: the tokens to each consumer, its charge class, its flags, the internal register. -/
structure Fire where
  a : List Token := []
  b : List Token := []
  cls : Nat
  flags : Flags := {}
  reg : ElemReg
  deriving DecidableEq, Repr

/-- The highest E and the T of A (R153), with a payload. -/
def highE (ops : List Token) : Nat := ops.foldl (fun m k => max m k.e) 0
def tagA (ops : List Token) : Nat := (ops.head?.map Token.t).getD 0
def outToken (ops : List Token) (v : Half) : Token := { payload := v, e := highE ops, t := tagA ops }
def nullToken (ops : List Token) : Token := { n := true, e := highE ops, t := tagA ops }

/-- What a null policy emits (R159). -/
def nullPolicy (absorb : BitVec 1) (ops : List Token) : List Token :=
  if absorb = 0 ∨ highE ops ≠ 0 then [nullToken ops] else []

/-- Whether any operand of a firing is null (R159). -/
def anyNull (ops : List Token) : Bool := ops.any Token.n

/-- The rounding mode of a variant; code 5 is the page's register (R69, R182). -/
def modeOf (p : Page) (v : BitVec 3) : Nat := if v.toNat = 5 then p.st.rnd else v.toNat

/-- What the firing does to the machine: the tokens are consumed, the flags stick, the charge is made,
the results leave (R157, R181, R184). -/
def State.fired (s : State) (p : Page) (slot : Nat) (srcs : List Src) (a b : Nat) (r : Fire) : State :=
  let p1 := (p.consume slot srcs).setElem slot r.reg
  let p2 : Page := { s.fires p1 with st := { p1.st with flags := stick p1.st.flags r.flags } }
  (s.chargePage p r.cls 1).setPage ((p2.sendAll slot slot a r.a).sendAll slot slot b r.b)

/-- The firing rule (R157): the element in `curSlot` of page `curPage` fires where its operands, its
room and its not being busy allow; otherwise it waits. Room is tested before the firing consumes, so that an element which
feeds itself does not count the entry it frees (log 99). A page that is not resident holds its state. -/
def elemFire (i : Instr) (a b : BitVec 9) (srcs : List Src) (s : State) (f : Page → List Token → ElemReg → Fire) : Out :=
  match s.page? s.curPage with
  | none => .fault .noAgent
  | some p =>
    let slot := s.curSlot
    let cs := [a.toNat, b.toNat]
    if p.region.isNone || !(wellFormed i) || p.busy slot cs then .next s
    else
      match operands p slot srcs with
      | none => .next s
      | some ops =>
        let r := f p ops (p.elem slot)
        let more := r.reg.second.toList
        match s.roomFor p slot [(a.toNat, r.a.length + more.length, r.a ++ more), (b.toNat, r.b.length + more.length, r.b ++ more)] with
        | none => .next (s.brokenPort p slot cs)
        | some false => .next s
        | some true => .next (s.fired p slot srcs a.toNat b.toNat r)

/-- An operation that emits one result to both consumers and follows the null policy (R153, R159). -/
def compute (i : Instr) (a b : BitVec 9) (srcs : List Src) (n : BitVec 1) (cls : Nat) (s : State)
    (f : Page → Half → Half → Half → Nat × Flags) : Out :=
  elemFire i a b srcs s fun p ops reg =>
    if anyNull ops then
      let out := nullPolicy n ops
      { a := out, b := out, cls := 0x17, reg }
    else
      let v (k : Nat) : Half := ((ops[k]?).map Token.payload).getD 0
      let r := f p (v 0) (v 1) (v 2)
      let out := [outToken ops (BitVec.ofNat 32 r.1)]
      { a := out, b := out, cls, flags := r.2, reg }

/-! ### Integer operations (R161) -/

/-- An operand under a Saturate kind: unsigned kinds read it unsigned (R161). -/
def kindInt (kind : BitVec 3) (x : Half) : Int := if kind.toNat = 2 then (x.toNat : Int) else signed 32 x.toNat

/-- A saturating integer operation (R161). -/
def satOp (f : Int → Int → Int) (kind : BitVec 3) (x y : Half) : Nat × Flags :=
  saturate (f (kindInt kind x) (kindInt kind y)) 32 kind.toNat

/-- The int-cc conditions (R46). -/
def intCond (cc : BitVec 3) (x y : Half) : Bool :=
  match cc.toNat with
  | 0 => decide (x = y)
  | 1 => decide (x ≠ y)
  | 2 => x.slt y
  | 3 => !x.slt y
  | 4 => x.ult y
  | _ => !x.ult y

/-- Bits [63:32] of the signed product (R161). -/
def mulHigh32 (x y : Half) : Nat := ((x.toInt * y.toInt / (2 : Int) ^ 32) % (2 : Int) ^ 32).toNat

/-- A result that sets no flag. -/
def plain (v : Half) : Nat × Flags := (v.toNat, {})

/-! ### Lanes (R168) -/

/-- A packed operation, lane by lane, with the flags of both. -/
def lanes (f : Nat → Nat → Nat → Nat × Flags) (x y z : Half) : Nat × Flags :=
  let lo := f (x.toNat % 65536) (y.toNat % 65536) (z.toNat % 65536)
  let hi := f (x.toNat / 65536) (y.toNat / 65536) (z.toNat / 65536)
  (lo.1 + hi.1 * 65536, lo.2.or hi.2)

/-- `f2b` (R169). -/
def toLanes (x y : Half) (mode : Nat) : Nat × Flags :=
  let lo := roundIeee 7 (decodeIeee 23 x.toNat) mode
  let hi := roundIeee 7 (decodeIeee 23 y.toNat) mode
  (lo.1 + hi.1 * 65536, lo.2.or hi.2)

/-- A lane as F32; a NaN becomes the canonical NaN (R169). -/
def fromLane (l : Nat) : Nat := if (decodeIeee 7 l).isNan then canonNan 23 else l * 65536

/-- A sign operation; a NaN becomes the canonical NaN (R163). -/
def signOp (f : Nat → Nat) (x : Half) : Nat × Flags := ((if (decodeIeee 23 x.toNat).isNan then canonNan 23 else f x.toNat), {})

/-- `iadd` (R161). -/
def execIadd (a b : BitVec 9) (sel : BitVec 2) (n : BitVec 1) (v : BitVec 3) (s : State) : Out :=
  compute (.iadd a b sel n v) a b (sources 2 sel) n 0x10 s fun _ x y _ => satOp (· + ·) v x y

/-- `isub` (R161). -/
def execIsub (a b : BitVec 9) (sel : BitVec 2) (n : BitVec 1) (v : BitVec 3) (s : State) : Out :=
  compute (.isub a b sel n v) a b (sources 2 sel) n 0x10 s fun _ x y _ => satOp (· - ·) v x y

/-- `imul` (R161). -/
def execImul (a b : BitVec 9) (sel : BitVec 2) (n : BitVec 1) (v : BitVec 3) (s : State) : Out :=
  compute (.imul a b sel n v) a b (sources 2 sel) n 0x11 s fun _ x y _ => satOp (· * ·) v x y

/-- `imulh` (R161). -/
def execImulh (a b : BitVec 9) (sel : BitVec 2) (n : BitVec 1) (s : State) : Out :=
  compute (.imulh a b sel n) a b (sources 2 sel) n 0x11 s fun _ x y _ => (mulHigh32 x y, {})

/-- `iand` (R161). -/
def execIand (a b : BitVec 9) (sel : BitVec 2) (n : BitVec 1) (s : State) : Out :=
  compute (.iand a b sel n) a b (sources 2 sel) n 0x10 s fun _ x y _ => plain (x &&& y)

/-- `ior` (R161). -/
def execIor (a b : BitVec 9) (sel : BitVec 2) (n : BitVec 1) (s : State) : Out :=
  compute (.ior a b sel n) a b (sources 2 sel) n 0x10 s fun _ x y _ => plain (x ||| y)

/-- `ixor` (R161). -/
def execIxor (a b : BitVec 9) (sel : BitVec 2) (n : BitVec 1) (s : State) : Out :=
  compute (.ixor a b sel n) a b (sources 2 sel) n 0x10 s fun _ x y _ => plain (x ^^^ y)

/-- `ishl` (R161). -/
def execIshl (a b : BitVec 9) (sel : BitVec 2) (n : BitVec 1) (s : State) : Out :=
  compute (.ishl a b sel n) a b (sources 2 sel) n 0x10 s fun _ x y _ => plain (x <<< (y.toNat % 32))

/-- `ishr` (R161). -/
def execIshr (a b : BitVec 9) (sel : BitVec 2) (n : BitVec 1) (s : State) : Out :=
  compute (.ishr a b sel n) a b (sources 2 sel) n 0x10 s fun _ x y _ => plain (x >>> (y.toNat % 32))

/-- `isar` (R161). -/
def execIsar (a b : BitVec 9) (sel : BitVec 2) (n : BitVec 1) (s : State) : Out :=
  compute (.isar a b sel n) a b (sources 2 sel) n 0x10 s fun _ x y _ => plain (x.sshiftRight (y.toNat % 32))

/-- `imin` (R161). -/
def execImin (a b : BitVec 9) (sel : BitVec 2) (n : BitVec 1) (s : State) : Out :=
  compute (.imin a b sel n) a b (sources 2 sel) n 0x10 s fun _ x y _ => plain (if x.slt y then x else y)

/-- `imax` (R161). -/
def execImax (a b : BitVec 9) (sel : BitVec 2) (n : BitVec 1) (s : State) : Out :=
  compute (.imax a b sel n) a b (sources 2 sel) n 0x10 s fun _ x y _ => plain (if x.slt y then y else x)

/-- `iminu` (R161). -/
def execIminu (a b : BitVec 9) (sel : BitVec 2) (n : BitVec 1) (s : State) : Out :=
  compute (.iminu a b sel n) a b (sources 2 sel) n 0x10 s fun _ x y _ => plain (if x.ult y then x else y)

/-- `imaxu` (R161). -/
def execImaxu (a b : BitVec 9) (sel : BitVec 2) (n : BitVec 1) (s : State) : Out :=
  compute (.imaxu a b sel n) a b (sources 2 sel) n 0x10 s fun _ x y _ => plain (if x.ult y then y else x)

/-- `iabs` (R161). -/
def execIabs (a b : BitVec 9) (sel : BitVec 2) (n : BitVec 1) (v : BitVec 3) (s : State) : Out :=
  compute (.iabs a b sel n v) a b (sources 1 sel) n 0x10 s fun _ x _ _ => saturate (x.toInt.natAbs : Int) 32 v.toNat

/-- `icmp` (R161). -/
def execIcmp (a b : BitVec 9) (sel : BitVec 2) (n : BitVec 1) (v : BitVec 3) (s : State) : Out :=
  compute (.icmp a b sel n v) a b (sources 2 sel) n 0x10 s fun _ x y _ => ((if intCond v x y then 1 else 0), {})

/-- `fadd` (R162). -/
def execFadd (a b : BitVec 9) (sel : BitVec 2) (n : BitVec 1) (v : BitVec 3) (s : State) : Out :=
  compute (.fadd a b sel n v) a b (sources 2 sel) n 0x12 s fun p x y _ => fpAdd 23 x.toNat y.toNat (modeOf p v)

/-- `fsub` (R162). -/
def execFsub (a b : BitVec 9) (sel : BitVec 2) (n : BitVec 1) (v : BitVec 3) (s : State) : Out :=
  compute (.fsub a b sel n v) a b (sources 2 sel) n 0x12 s fun p x y _ => fpSub 23 x.toNat y.toNat (modeOf p v)

/-- `fmul` (R162). -/
def execFmul (a b : BitVec 9) (sel : BitVec 2) (n : BitVec 1) (v : BitVec 3) (s : State) : Out :=
  compute (.fmul a b sel n v) a b (sources 2 sel) n 0x12 s fun p x y _ => fpMul 23 x.toNat y.toNat (modeOf p v)

/-- `ffma` (R162). -/
def execFfma (a b : BitVec 9) (sel : BitVec 2) (n : BitVec 1) (v : BitVec 3) (s : State) : Out :=
  compute (.ffma a b sel n v) a b (sources 3 sel) n 0x12 s fun p x y z => fpFma 23 x.toNat y.toNat z.toNat (modeOf p v)

/-- `fmin` (R163). -/
def execFmin (a b : BitVec 9) (sel : BitVec 2) (n : BitVec 1) (s : State) : Out :=
  compute (.fmin a b sel n) a b (sources 2 sel) n 0x12 s fun _ x y _ => (fpMinMax 23 false x.toNat y.toNat, {})

/-- `fmax` (R163). -/
def execFmax (a b : BitVec 9) (sel : BitVec 2) (n : BitVec 1) (s : State) : Out :=
  compute (.fmax a b sel n) a b (sources 2 sel) n 0x12 s fun _ x y _ => (fpMinMax 23 true x.toNat y.toNat, {})

/-- `fabs` (R163). -/
def execFabs (a b : BitVec 9) (sel : BitVec 2) (n : BitVec 1) (s : State) : Out :=
  compute (.fabs a b sel n) a b (sources 1 sel) n 0x12 s fun _ x _ _ => signOp (· % 2 ^ 31) x

/-- `fneg` (R163). -/
def execFneg (a b : BitVec 9) (sel : BitVec 2) (n : BitVec 1) (s : State) : Out :=
  compute (.fneg a b sel n) a b (sources 1 sel) n 0x12 s fun _ x _ _ => signOp (fun c => (c + 2 ^ 31) % 2 ^ 32) x

/-- `fcmp` (R163). -/
def execFcmp (a b : BitVec 9) (sel : BitVec 2) (n : BitVec 1) (v : BitVec 3) (s : State) : Out :=
  compute (.fcmp a b sel n v) a b (sources 2 sel) n 0x12 s fun _ x y _ => ((if fpCond v.toNat x.toNat y.toNat then 1 else 0), {})

/-- `rndi` (R164). -/
def execRndi (a b : BitVec 9) (sel : BitVec 2) (n : BitVec 1) (v : BitVec 3) (s : State) : Out :=
  compute (.rndi a b sel n v) a b (sources 1 sel) n 0x14 s fun p x _ _ => (fpRndi x.toNat (modeOf p v), {})

/-- `fxp` (R165). -/
def execFxp (a b : BitVec 9) (sel : BitVec 2) (n : BitVec 1) (s : State) : Out :=
  compute (.fxp a b sel n) a b (sources 1 sel) n 0x14 s fun _ x _ _ => fpExp2 x.toNat

/-- `expins` (R166). -/
def execExpins (a b : BitVec 9) (sel : BitVec 2) (n : BitVec 1) (s : State) : Out :=
  compute (.expins a b sel n) a b (sources 2 sel) n 0x14 s fun _ x y _ => fpExpIns x.toNat y.toNat

/-- `expext` (R166). -/
def execExpext (a b : BitVec 9) (sel : BitVec 2) (n : BitVec 1) (s : State) : Out :=
  compute (.expext a b sel n) a b (sources 1 sel) n 0x14 s fun _ x _ _ => fpExpExt x.toNat

/-- `frcp` (R167). -/
def execFrcp (a b : BitVec 9) (sel : BitVec 2) (n : BitVec 1) (s : State) : Out :=
  compute (.frcp a b sel n) a b (sources 1 sel) n 0x14 s fun _ x _ _ => fpRcp x.toNat

/-- `frsq` (R167). -/
def execFrsq (a b : BitVec 9) (sel : BitVec 2) (n : BitVec 1) (s : State) : Out :=
  compute (.frsq a b sel n) a b (sources 1 sel) n 0x14 s fun _ x _ _ => fpRsq x.toNat

/-- `badd2` (R168). -/
def execBadd2 (a b : BitVec 9) (sel : BitVec 2) (n : BitVec 1) (v : BitVec 3) (s : State) : Out :=
  compute (.badd2 a b sel n v) a b (sources 2 sel) n 0x13 s fun p x y z => lanes (fun l m _ => fpAdd 7 l m (modeOf p v)) x y z

/-- `bsub2` (R168). -/
def execBsub2 (a b : BitVec 9) (sel : BitVec 2) (n : BitVec 1) (v : BitVec 3) (s : State) : Out :=
  compute (.bsub2 a b sel n v) a b (sources 2 sel) n 0x13 s fun p x y z => lanes (fun l m _ => fpSub 7 l m (modeOf p v)) x y z

/-- `bmul2` (R168). -/
def execBmul2 (a b : BitVec 9) (sel : BitVec 2) (n : BitVec 1) (v : BitVec 3) (s : State) : Out :=
  compute (.bmul2 a b sel n v) a b (sources 2 sel) n 0x13 s fun p x y z => lanes (fun l m _ => fpMul 7 l m (modeOf p v)) x y z

/-- `bfma2` (R168). -/
def execBfma2 (a b : BitVec 9) (sel : BitVec 2) (n : BitVec 1) (v : BitVec 3) (s : State) : Out :=
  compute (.bfma2 a b sel n v) a b (sources 3 sel) n 0x13 s fun p x y z => lanes (fun l m k => fpFma 7 l m k (modeOf p v)) x y z

/-- `bmin2` (R168). -/
def execBmin2 (a b : BitVec 9) (sel : BitVec 2) (n : BitVec 1) (s : State) : Out :=
  compute (.bmin2 a b sel n) a b (sources 2 sel) n 0x13 s fun _ x y z => lanes (fun l m _ => (fpMinMax 7 false l m, {})) x y z

/-- `bmax2` (R168). -/
def execBmax2 (a b : BitVec 9) (sel : BitVec 2) (n : BitVec 1) (s : State) : Out :=
  compute (.bmax2 a b sel n) a b (sources 2 sel) n 0x13 s fun _ x y z => lanes (fun l m _ => (fpMinMax 7 true l m, {})) x y z

/-- `i2f` (R169). -/
def execI2f (a b : BitVec 9) (sel : BitVec 2) (n : BitVec 1) (v : BitVec 3) (s : State) : Out :=
  compute (.i2f a b sel n v) a b (sources 1 sel) n 0x15 s fun p x _ _ => roundIeee 23 (exInt x.toInt) (modeOf p v)

/-- `f2i` (R169). -/
def execF2i (a b : BitVec 9) (sel : BitVec 2) (n : BitVec 1) (v : BitVec 3) (s : State) : Out :=
  compute (.f2i a b sel n v) a b (sources 1 sel) n 0x15 s fun p x _ _ => roundToInt 32 1 (decodeIeee 23 x.toNat) (modeOf p v)

/-- `f2b` (R169). -/
def execF2b (a b : BitVec 9) (sel : BitVec 2) (n : BitVec 1) (v : BitVec 3) (s : State) : Out :=
  compute (.f2b a b sel n v) a b (sources 2 sel) n 0x15 s fun p x y _ => toLanes x y (modeOf p v)

/-- `b2f` (R169). -/
def execB2f (a b : BitVec 9) (sel : BitVec 2) (n : BitVec 1) (s : State) : Out :=
  compute (.b2f a b sel n) a b (sources 1 sel) n 0x15 s fun _ x _ _ => (fromLane (x.toNat % 65536), {})

/-- `b2fh` (R169). -/
def execB2fh (a b : BitVec 9) (sel : BitVec 2) (n : BitVec 1) (s : State) : Out :=
  compute (.b2fh a b sel n) a b (sources 1 sel) n 0x15 s fun _ x _ _ => (fromLane (x.toNat / 65536), {})

/-- `esel` (R170). -/
def execEsel (a b : BitVec 9) (sel : BitVec 2) (n : BitVec 1) (s : State) : Out :=
  compute (.esel a b sel n) a b (sources 3 sel) n 0x16 s fun _ x y z => plain (if x ≠ 0 then y else z)

/-! ### Flow operations (R170 to R176) -/

/-- A result to both consumers. -/
def toBoth (out : List Token) (cls : Nat) (reg : ElemReg) (flags : Flags := {}) : Fire := { a := out, b := out, cls, reg, flags }

/-- The operand number `k` of a firing. -/
def opn (ops : List Token) (k : Nat) : Token := (ops[k]?).getD {}

/-- `tagset`: T becomes b[4:0]; a null A keeps the new T under propagate (R170). -/
def execTagset (a b : BitVec 9) (sel : BitVec 2) (n : BitVec 1) (s : State) : Out :=
  elemFire (.tagset a b sel n) a b (sources 2 sel) s fun _ ops reg =>
    let x := opn ops 0
    let y := opn ops 1
    let t := y.payload.toNat % 32
    if y.n || (x.n && decide (n = 1)) then toBoth (nullPolicy n ops) 0x17 reg
    else if x.n then toBoth [{ nullToken ops with t }] 0x17 reg
    else toBoth [{ outToken ops x.payload with t }] 0x16 reg

/-- `pass`: the token with its sideband unchanged (R170). -/
def execPass (a b : BitVec 9) (sel : BitVec 2) (n : BitVec 1) (s : State) : Out :=
  elemFire (.pass a b sel n) a b (sources 1 sel) s fun _ ops reg =>
    if anyNull ops then toBoth (nullPolicy n ops) 0x17 reg else toBoth [opn ops 0] 0x16 reg

/-- `ends`: E becomes the highest of the operands' E and b[1:0] (R170). -/
def execEnds (a b : BitVec 9) (sel : BitVec 2) (n : BitVec 1) (s : State) : Out :=
  elemFire (.ends a b sel n) a b (sources 2 sel) s fun _ ops reg =>
    let x := opn ops 0
    let y := opn ops 1
    let e := max (highE ops) (y.payload.toNat % 4)
    if y.n || (x.n && decide (n = 1)) then toBoth (nullPolicy n ops) 0x17 reg
    else if x.n then toBoth [{ nullToken ops with e }] 0x17 reg
    else toBoth [{ outToken ops x.payload with e }] 0x16 reg

/-- `steer` (R171). -/
def execSteer (a b : BitVec 9) (sel : BitVec 2) (n : BitVec 1) (s : State) : Out :=
  elemFire (.steer a b sel n) a b (sources 2 sel) s fun _ ops reg =>
    if anyNull ops then toBoth (nullPolicy n ops) 0x17 reg
    else
      let taken := [outToken ops (opn ops 0).payload]
      let other := if n = 0 then [nullToken ops] else []
      if (opn ops 1).payload ≠ 0 then { a := taken, b := other, cls := 0x16, reg }
      else { a := other, b := taken, cls := 0x16, reg }

/-- `merge`; a constant B makes it act as `pass` (R172). The second of two non-null tokens waits in
the internal register. -/
def execMerge (a b : BitVec 9) (sel : BitVec 2) (n : BitVec 1) (s : State) : Out :=
  if sel.toNat = 1 ∨ sel.toNat = 2 then
    elemFire (.merge a b sel n) a b (sources 1 sel) s fun _ ops reg =>
      if anyNull ops then toBoth (nullPolicy n ops) 0x17 reg else toBoth [opn ops 0] 0x16 reg
  else
    elemFire (.merge a b sel n) a b (sources 2 sel) s fun _ ops reg =>
      let x : Token := { opn ops 0 with e := highE ops }
      let y : Token := { opn ops 1 with e := highE ops }
      match x.n, y.n with
      | true, true => toBoth (nullPolicy n ops) 0x17 reg
      | false, true => toBoth [x] 0x16 reg
      | true, false => toBoth [y] 0x16 reg
      | false, false => toBoth [x] 0x16 { reg with second := some y }

/-- `gate` (R173). -/
def execGate (a b : BitVec 9) (sel : BitVec 2) (n : BitVec 1) (s : State) : Out :=
  elemFire (.gate a b sel n) a b (sources 2 sel) s fun _ ops reg =>
    if anyNull ops then toBoth (nullPolicy n ops) 0x17 reg
    else if (opn ops 1).payload ≠ 0 then toBoth [outToken ops (opn ops 0).payload] 0x16 reg
    else toBoth (nullPolicy n ops) 0x16 reg

/-- `dup`: the first copy leaves in the firing, the rest one by one (R174). -/
def execDup (a b : BitVec 9) (sel : BitVec 2) (n : BitVec 1) (s : State) : Out :=
  elemFire (.dup a b sel n) a b (sources 2 sel) s fun _ ops reg =>
    let x := opn ops 0
    let y := opn ops 1
    let cnt := y.payload.toNat % 65536
    let tok := if x.n then nullToken ops else outToken ops x.payload
    let cls := if x.n then 0x17 else 0x16
    if y.n || (x.n && decide (n = 1)) then toBoth (nullPolicy n ops) 0x17 reg
    else if cnt = 0 then toBoth (if highE ops ≠ 0 then [nullToken ops] else []) cls reg
    else if cnt = 1 then toBoth [tok] cls reg
    else toBoth [{ tok with e := 0 }] cls { reg with dupTok := tok, dupLeft := cnt - 1 }

/-- `acc` (R175). Its firings on null tokens charge FIRE_FLOW, since its null rule is its own (log 36). -/
def execAcc (a b : BitVec 9) (sel : BitVec 2) (n : BitVec 1) (v : BitVec 3) (s : State) : Out :=
  elemFire (.acc a b sel n v) a b (sources 1 sel) s fun p ops reg =>
    let x := opn ops 0
    let k := (elemConst p.image s.curSlot 1).toNat % 4
    let sum := fpAdd 23 reg.sum.toNat x.payload.toNat (modeOf p v)
    let s1 : Half := if x.n then reg.sum else BitVec.ofNat 32 sum.1
    let pois := reg.poisoned || (x.n && decide (n = 0))
    let flags : Flags := if x.n then {} else sum.2
    let out := if pois then nullToken ops else outToken ops s1
    let kept : ElemReg := if k ≠ 0 ∧ x.e ≥ k then { reg with sum := 0, poisoned := false } else { reg with sum := s1, poisoned := pois }
    toBoth (if k = 0 ∨ x.e ≥ k then [out] else []) 0x16 kept flags

/-- `cnt` (R176). -/
def execCnt (a b : BitVec 9) (sel : BitVec 2) (n : BitVec 1) (s : State) : Out :=
  elemFire (.cnt a b sel n) a b (sources 2 sel) s fun _ ops reg =>
    let y := opn ops 1
    let c1 := reg.count + 1
    let c2 : Half := if !y.n && decide (y.payload ≠ 0 ∧ c1 = y.payload) then 0 else c1
    if anyNull ops then
      toBoth (nullPolicy n ops) 0x17 (if n = 0 then { reg with count := c2 } else reg)
    else toBoth [outToken ops reg.count] 0x16 { reg with count := c2 }

/-! ### Emissions that follow a firing -/

/-- The next emission of an element: it leaves where every consumer has room (R155, R202). -/
def emitNext (page slot : Nat) (s : State) (tok? : Page → Option (Token × ElemReg)) : Out :=
  match s.page? page with
  | none => .next s
  | some p =>
    if p.region.isNone || p.st.held.any (fun f => decide (f.producer = slot)) then .next s
    else
      match tok? p with
      | none => .next s
      | some (k, reg) =>
        let cs := consumersOf p.image slot
        match s.roomFor p slot (cs.map fun c => (c, 1, [k])) true with
        | none => .next (s.brokenPort p slot cs)
        | some false => .next s
        | some true => .next (s.setPage (cs.foldl (fun p c => p.sendAll slot slot c [k]) (p.setElem slot reg)))

/-- The second token of a `merge` (R172); room for it was found at the firing. -/
def execMergeSecondEmit (page slot : Nat) (s : State) : Out :=
  match s.page? page with
  | none => .next s
  | some p =>
    match (p.elem slot).second with
    | none => .next s
    | some k =>
      if p.region.isNone then .next s
      else
        .next (s.setPage ((consumersOf p.image slot).foldl (fun p c => p.sendAll slot slot c [k])
          (p.setElem slot { p.elem slot with second := none })))

/-- The next copy of a `dup`; only the last carries the firing's E (R174). -/
def execDupCopyEmit (page slot : Nat) (s : State) : Out :=
  emitNext page slot s fun p =>
    let r := p.elem slot
    match r.dupLeft with
    | 0 => none
    | m + 1 => some ((if m = 0 then r.dupTok else { r.dupTok with e := 0 }), { r with dupLeft := m })

/-- A token in flight reaches its consumer (R154). -/
def execTokenArrival (page k : Nat) (s : State) : Out :=
  match s.page? page with
  | none => .next s
  | some p => .next (if p.region.isNone then s else s.arrive p k)

/-- The token held for a queue leaves the producer whose turn it is (R156). -/
def execQueueTurnRelease (page slot q : Nat) (s : State) : Out :=
  match s.page? page with
  | none => .next s
  | some p =>
    let qu := p.queue slot q
    let prods := producersOf p.image slot q
    match prods[qu.turn]? with
    | none => .next s
    | some j =>
      match p.st.held.findIdx? fun f => decide (f.producer = j ∧ f.dest = .queue slot q) with
      | none => .next s
      | some k =>
        if p.region.isNone then .next s
        else
          let f := p.st.held.getD k ⟨j, .queue slot q, {}⟩
          let p1 : Page := { p with st := { p.st with held := p.st.held.eraseIdx k, flight := p.st.flight ++ [f] } }
          .next (s.setPage (p1.setQueue slot q { qu with turn := (qu.turn + 1) % prods.length }))

/-! ### RSUs (R178 to R180) -/

/-- The fields of an RSU's configuration word (R178). -/
def rsuOp (im : List Byte) (row : Nat) : Nat := bits (rsuWord im row) 0 7
def rsuScan (im : List Byte) (row : Nat) : Bool := bit (rsuWord im row) 7
def rsuOut (im : List Byte) (row : Nat) : Nat := bits (rsuWord im row) 8 9
def rsuMask (im : List Byte) (row : Nat) : Nat := bits (rsuWord im row) 17 8
def rsuMode (p : Page) (row : Nat) : Nat := modeOf p (BitVec.ofNat 3 (bits (rsuWord p.image row) 25 3))

/-- One step of a fold or scan (R178). -/
def rsuStep (op mode : Nat) (x y : Half) : Nat × Flags :=
  match op with
  | 0x01 => fpAdd 23 x.toNat y.toNat mode
  | 0x02 => (fpMinMax 23 false x.toNat y.toNat, {})
  | 0x03 => (fpMinMax 23 true x.toNat y.toNat, {})
  | 0x04 => lanes (fun l m _ => fpAdd 7 l m mode) x y 0
  | 0x08 => plain (x + y)
  | 0x09 => plain (if x.slt y then x else y)
  | 0x0A => plain (if x.slt y then y else x)
  | 0x0B => plain (if x.ult y then x else y)
  | 0x0C => plain (if x.ult y then y else x)
  | 0x0D => plain (x &&& y)
  | 0x0E => plain (x ||| y)
  | _ => plain (x ^^^ y)

/-- The values after each step of a chain that starts with its first input (R79), and its flags. -/
def rsuChain (op mode : Nat) : Half → List Half → List Half × Flags
  | acc, [] => ([acc], {})
  | acc, y :: r =>
    let st := rsuStep op mode acc y
    let rest := rsuChain op mode (BitVec.ofNat 32 st.1) r
    (acc :: rest.1, st.2.or rest.2)

/-- The masked columns of an RSU. -/
def rsuCols (im : List Byte) (row : Nat) : List Nat := (List.range 8).filter fun c => bit (rsuMask im row) c

/-- What an RSU's firing emits: its tokens in order, and its flags (R180). -/
def rsuEmit (p : Page) (row : Nat) (ins : List Token) : List Token × Flags :=
  let e := highE ins
  let t := tagA ins
  match (ins.filter fun k => !k.n).map Token.payload with
  | [] => ([{ n := true, e, t }], {})
  | x :: r =>
    let ch := rsuChain (rsuOp p.image row) (rsuMode p row) x r
    let last : Token := { payload := ch.1.getLastD 0, e, t }
    if rsuScan p.image row then (ch.1.dropLast.map (fun v => { payload := v, t }) ++ [last], ch.2) else ([last], ch.2)

/-- An RSU fires: one token from each masked column; a fold's token, or a scan's first, leaves (R180). -/
def execRsuFire (page row : Nat) (s : State) : Out :=
  match s.page? page with
  | none => .next s
  | some p =>
    let r := p.rsu row
    let cols := rsuCols p.image row
    let heads := cols.map fun c => (tabGet [] r.inputs c).head?
    let out := rsuOut p.image row
    let waits := p.st.held.any fun f => decide (f.producer = 64 + row)
    let portBusy := (portsNamed 0 [out]).any fun e => !(p.port e).held.isEmpty
    if p.region.isNone || !(bit (pgRsuen p.image) row) || cols.isEmpty || !r.emit.isEmpty || waits || portBusy ||
        heads.any (fun h => match h with | some k => k.m | none => true) then .next s
    else
      let ins := heads.filterMap id
      let (toks, flags) := rsuEmit p row ins
      match s.roomFor p (8 * row + 7) [(out, 1, toks.take 1)] with
      | none => .next (s.brokenPort p (8 * row + 7) [out])
      | some false => .next s
      | some true =>
        let ins' := cols.foldl (fun t c => tabSet t c (tabGet [] r.inputs c).tail) r.inputs
        let p1 := p.setRsu row { r with inputs := ins', emit := toks.tail, scan := rsuScan p.image row }
        let p2 : Page := { s.fires p1 with st := { p1.st with flags := stick p1.st.flags flags } }
        .next ((s.chargePage p 0x1A (ins.filter fun k => !k.n).length).setPage (p2.sendAll (64 + row) (8 * row + 7) out (toks.take 1)))

/-- The next token of a scan (R180); its room is tested as it leaves (log 35). -/
def execRsuScanEmit (page row : Nat) (s : State) : Out :=
  match s.page? page with
  | none => .next s
  | some p =>
    let r := p.rsu row
    let out := rsuOut p.image row
    let waits := p.st.held.any fun f => decide (f.producer = 64 + row)
    match r.emit with
    | [] => .next s
    | k :: rest =>
      if p.region.isNone || waits then .next s
      else
        match s.roomFor p (8 * row + 7) [(out, 1, [k])] true with
        | none => .next (s.brokenPort p (8 * row + 7) [out])
        | some false => .next s
        | some true => .next (s.setPage ((p.setRsu row { r with emit := rest }).sendAll (64 + row) (8 * row + 7) out [k]))

end Sys2Proof.Machine
end

