-- ==== Sys2Proof/Machine/Streams.lean ====
section
/-! DEFINITION. Port elements and address generators (R200 to R215), and marker alignment within a
page (R160, R205). -/

namespace Sys2Proof.Machine

/-! ### `rin` (R201, R204, R205) -/

/-- Tokens leave a port element toward its consumers (R201), unless a consumer lacks room. -/
def State.rinSend (s : State) (p : Page) (slot : Nat) (a b : Nat) (k : Token) (go : State → Page → State) : Out :=
  match s.roomFor p slot [(a, 1, [k]), (b, 1, [k])] with
  | none => .next (s.brokenPort p slot [a, b])
  | some false => .next s
  | some true =>
    let p1 := (p.sendAll slot slot a [k]).sendAll slot slot b [k]
    .next (go s (s.fires p1))

/-- An input port holds at its declared count (R429). -/
def portHolds (p : Page) (t : Thread) (e : Nat) : Bool :=
  match portDeclared p t e with
  | some c => decide ((p.port e).count ≥ c)
  | none => false

/-- The charges of a port's access to its slot memory (R219). -/
def State.chargePort (s : State) (p : Page) (pa n : Nat) : State :=
  s.chargeMove (s.islandOf (p.region.getD 0)) (s.pageAcct p) (p.region.getD 0) pa n false

/-- A token of a back edge that an aligned page's `rin` delivers before its ring's marker is recorded as in flight there, with
the page's region state and in the cut's record of it (R205, R218). -/
def State.recordBack (s : State) (p : Page) (t : Thread) (slot e : Nat) (k : Token) : State × Page :=
  match s.inst? p.part p.inst with
  | none => (s, p)
  | some i =>
    match i.cut with
    | none => (s, p)
    | some c =>
      if portBack p.image e && p.st.marked.contains slot && decide (p.st.cutNum = c.injected.toNat) &&
          !(c.backTaken.contains (t.actor, portHandle p.image e)) then
        let note (q : Page) : Page := { q with st := { q.st with backRecs := q.st.backRecs ++ [(512 + e, k)] } }
        (s.setInst { i with cut := some { c with pages := c.pages.map fun q =>
          if q.ordinal = p.ordinal ∧ q.index = p.index then note q else q } }, note p)
      else (s, p)

/-- The token at the cursor of an open input slot leaves (R201). An uncorrectable error in its word is a port fault
(R149). -/
def State.rinToken (s : State) (p : Page) (t : Thread) (slot a b e : Nat) : Out :=
  let pt := p.port e
  let h := t.handle (portHandle p.image e)
  let cnt := bits pt.trailer 0 13
  let null := bit pt.trailer 20
  let last := decide (pt.cursor + 1 = cnt)
  let k : Token := { payload := if null then 0 else BitVec.ofNat 32 (s.readNat (h.slotPa t.tile pt.slot + 4 * pt.cursor) 4), n := null, e := if last then bits pt.trailer 13 2 else 0, t := bits pt.trailer 15 5 }
  let pa := h.slotPa t.tile pt.slot + 4 * pt.cursor
  if portHolds p t e then .next s
  else if !null && s.bad pa 4 then .next ((s.memUe pa 0).portFault t p e 0x90 (h.slotOffset pt.slot) pt.cursor)
  else if portTchk p.image e && !null && decide (k.t ≠ portTag p.image e) then
    .next (s.portFault t p e 0x43 (h.slotOffset pt.slot) pt.cursor)
  else
    s.rinSend p slot a b k fun s p =>
      let pt1 : Port := { pt with cursor := pt.cursor + 1, count := pt.count + 1 }
      let pt2 : Port := if last then { pt1 with isOpen := false, cursor := 0, finished := pt.finished + 1 } else pt1
      let s1 := if pt.cursor % 16 = 0 && !null then s.chargePort p pa 64 else s
      let (s2, p2) := (s1.chargePage p 0x1B 1).recordBack (p.setPort e pt2) t slot e k
      s2.setPage p2

/-- The marker of an open marker slot leaves once the consumers have room (R201), and the slot is finished. -/
def State.rinMarker (s : State) (p : Page) (t : Thread) (slot a b e : Nat) : Out :=
  let pt := p.port e
  let h := t.handle (portHandle p.image e)
  let at_ := h.slotPa t.tile pt.slot
  if s.bad at_ 4 then .next ((s.memUe at_ 0).portFault t p e 0x90 (h.slotOffset pt.slot) 0)
  else
    s.rinSend p slot a b { payload := BitVec.ofNat 32 (s.readNat at_ 4), m := true } fun s p =>
      let p1 := p.setPort e { pt with isOpen := false, finished := pt.finished + 1, finishedMark := pt.finishedMark + 1 }
      let p2 : Page := if p.st.aligning then { p1 with st := { p1.st with marked := slot :: p1.st.marked } } else p1
      (((s.chargePort p at_ 4).chargePage p 0x1B 1).chargePage p 0x22 1).setPage p2

/-- Whether an open input slot is a marker slot (R187). -/
def Port.isMarker (pt : Port) : Bool := bit pt.trailer 21

/-- Whether a trailer line is well formed for a port (R187): every reserved bit of the line is zero. -/
def trailerOk (line : List Byte) (tps : Nat) : Bool :=
  let w := field line 0 4
  decide (w / 2 ^ 22 = 0) && (line.drop 4).all (fun b => decide (b = 0)) &&
    (if bit w 21 then decide (bits w 0 13 = 0) else decide (1 ≤ bits w 0 13 ∧ bits w 0 13 ≤ tps))

/-- The port of a `rin` opens the slot at Head, whether or not its element can fire now and its consumers have room, and the
token, or the marker of a marker slot, leaves as soon as it can (R201); `busy`: the element cannot fire now. A cut's marker slot waits for
the marker firing (R251), and on a back edge for R252. During a marker firing a `rin` opens no data slot (log 103). -/
def State.rinOpen (s : State) (p : Page) (t : Thread) (slot a b e : Nat) (busy : Bool) : Out :=
  let hn := portHandle p.image e
  let h := t.handle hn
  let head := h.l.toNat + h.p
  let addr := h.slotOffset head
  match s.availTo? t.tile h with
  | none => .next (s.portBroken t p e addr 0)
  | some 0 => .next s
  | some _ =>
    let at_ := h.slotPa t.tile head
    let line := s.readBytes (at_ + h.slotB - 64) 64
    let w := field line 0 4
    let cutting := match s.inst? p.part p.inst with | some i => i.cut.isSome | none => false
    let marker := bit w 21
    if s.bad (at_ + h.slotB - 64) 64 then .next ((s.memUe (at_ + h.slotB - 64) 0).portFault t p e 0x90 addr 0)
    else if marker && (portBack p.image e || (cutting && !p.st.aligning)) then .next s
    else if !marker && (p.st.aligning || portHolds p t e || !(s.takeOk t hn 1)) then .next s
    else if !(trailerOk line (portTps p.image e)) then .next (s.portFault t p e 0x07 addr 0)
    else
      let t1 := t.takeFor hn (!marker)
      let p1 := p.setPort e { p.port e with isOpen := true, slot := head, cursor := 0, trailer := w }
      let s1 := (((if marker then s else s.recordTaken t hn 1).chargePort p (at_ + h.slotB - 64) 64).setThread t1).setPage p1
      if busy then .next s1 else if marker then s1.rinMarker p1 t1 slot a b e else s1.rinToken p1 t1 slot a b e

/-- `rin` (R201, R205). -/
def execRin (a b : BitVec 9) (i : BitVec 4) (s : State) : Out :=
  match s.page? s.curPage with
  | none => .fault .noAgent
  | some p =>
    let slot := s.curSlot
    let e := i.toNat
    match s.pageThread p with
    | none => .next s
    | some t =>
      let busy := p.busy slot [a.toNat, b.toNat]
      if p.region.isNone || !(wellFormed (.rin a b i)) || !(s.portsOpen p) then .next s
      else if p.st.aligning && portBack p.image e then
        if busy || p.st.marked.contains slot then .next s
        else
          s.rinSend p slot a.toNat b.toNat { payload := BitVec.ofNat 32 p.st.cutNum, m := true } fun s p =>
            s.setPage { p with st := { p.st with marked := slot :: p.st.marked } }
      else if (p.port e).isOpen then
        (if busy then .next s else if (p.port e).isMarker then s.rinMarker p t slot a.toNat b.toNat e
         else if p.st.aligning then .next s else s.rinToken p t slot a.toNat b.toNat e)
      else s.rinOpen p t slot a.toNat b.toNat e busy

/-! ### `rout` and `rep` (R202, R203) -/

/-- An element that hands `q0` to an output port, and to its consumers if it has any. -/
def portElem (i : Instr) (e a b : Nat) (s : State) : Out :=
  match s.page? s.curPage with
  | none => .fault .noAgent
  | some p =>
    let slot := s.curSlot
    if p.region.isNone || !(wellFormed i) || p.busy slot [a, b] || !(p.port e).held.isEmpty then .next s
    else
      match operands p slot [.q 0] with
      | none => .next s
      | some ops =>
        let k := opn ops 0
        match s.roomFor p slot [(256 + 4 * e, 1, [k]), (a, 1, [k]), (b, 1, [k])] with
        | none => .next (s.brokenPort p slot [256 + 4 * e, a, b])
        | some false => .next s
        | some true =>
          let p1 := ((p.consume slot [.q 0]).sendAll slot slot a [k]).sendAll slot slot b [k]
          let p2 := s.fires p1
          .next ((s.setPage p2).portArrive p2 e k)

/-- `rout` (R202). -/
def execRout (i : BitVec 4) (s : State) : Out := portElem (.rout i) i.toNat 0x1FF 0x1FF s

/-- `rep` (R203). -/
def execRep (a b : BitVec 9) (i : BitVec 4) (s : State) : Out := portElem (.rep a b i) i.toNat a.toNat b.toNat s

/-- An output port accepts the oldest token on its way to it (R202). -/
def execOutputPortWrite (page port : Nat) (s : State) : Out :=
  match s.page? page with
  | none => .next s
  | some p =>
    match p.st.flight.findIdx? fun f => decide (f.dest = .port port) with
    | none => .next s
    | some k => .next (if p.region.isNone then s else s.arrive p k)

/-- A port writes the token it holds (R202). -/
def execPortHeldTokenWrite (page port : Nat) (s : State) : Out :=
  match s.page? page with
  | none => .next s
  | some p => .next (if p.region.isNone then s else s.portRetry p port)

/-! ### Address generators (R208 to R215) -/

/-- A descriptor of the page (R48), its fields. -/
def agField (im : List Byte) (d off n : Nat) : Nat := field im (0x710 + 64 * d + off) n
def agBase (im : List Byte) (d : Nat) : Nat := bits (agField im d 0 8) 0 56
def agSpace (im : List Byte) (d : Nat) : Nat := bits (agField im d 0 8) 56 3
def agDir (im : List Byte) (d : Nat) : Nat := bits (agField im d 0 8) 59 1
def agLimit (im : List Byte) (d : Nat) : Nat := bits (agField im d 8 8) 0 40
def agSlot (im : List Byte) (d : Nat) : Nat := bits (agField im d 8 8) 40 6
def agSize (im : List Byte) (d : Nat) : Nat := bits (agField im d 8 8) 46 3
def agWset (im : List Byte) (d : Nat) : Nat := bits (agField im d 8 8) 49 7
def agFmt (im : List Byte) (d : Nat) : Nat := bits (agField im d 8 8) 56 8
def agCount (im : List Byte) (d k : Nat) : Nat := agField im d (0x10 + 4 * k) 4
def agStride (im : List Byte) (d k : Nat) : Int := signed 64 (agField im d (0x20 + 8 * k) 8)

/-- Tokens of an access (R208). -/
def agTokens (size : Nat) : Nat := if size ≤ 2 then 1 else 2 ^ (size - 2)

/-- The iteration number of a nest's indices, and the indices of an iteration number (R208, R212). -/
def agIter (im : List Byte) (d : Nat) (g : Ag) : Nat :=
  g.i0 + agCount im d 0 * (g.i1 + agCount im d 1 * (g.i2 + agCount im d 2 * g.i3))
def agIndex (im : List Byte) (d n k : Nat) : Nat :=
  match k with
  | 0 => n % agCount im d 0
  | 1 => n / agCount im d 0 % agCount im d 1
  | 2 => n / (agCount im d 0 * agCount im d 1) % agCount im d 2
  | _ => n / (agCount im d 0 * agCount im d 1 * agCount im d 2)

/-- How many iterations a run has. -/
def agTotal (im : List Byte) (d : Nat) : Nat := agCount im d 0 * agCount im d 1 * agCount im d 2 * agCount im d 3

/-- The generator at an iteration. -/
def Ag.at_ (g : Ag) (im : List Byte) (d n : Nat) : Ag :=
  { g with i0 := agIndex im d n 0, i1 := agIndex im d n 1, i2 := agIndex im d n 2, i3 := agIndex im d n 3 }

/-- The end rank of an access's last token (R209). -/
def agRank (im : List Byte) (d n : Nat) : Nat :=
  let j := ((List.range 4).takeWhile fun k => decide (agIndex im d n k + 1 = agCount im d k)).length
  match j with | 0 => 0 | 1 => 1 | 2 => 2 | 3 => 2 | _ => 3

/-- The address of an access, modulo 2^56 (R208). -/
def agAddr (im : List Byte) (d n : Nat) (off : Int) : Nat :=
  (((agBase im d : Int) + off + (List.range 4).foldl (fun v k => v + agIndex im d n k * agStride im d k) 0) % (2 : Int) ^ 56).toNat

/-- What an access of an AG gives: a physical address, or a cause with its value. -/
def State.agTranslate (s : State) (p : Page) (t : Thread) (d va n : Nat) (acc : Access) : State × Except (Nat × Nat) Nat :=
  let im := p.image
  let sp := agSpace im d
  if sp ≠ 0 then
    if va + n > storeSize sp then (s, .error (0x21, va))
    else
      let pa := storeBase t.tile sp + va
      let s1 := s.chargePort p pa n
      if s1.bad pa n && decide (acc ≠ .write) then (s1.memUe pa acc.code, .error (0x90, va)) else (s1, .ok pa)
  else
    let set := tabGet [] p.windows (agWset im d)
    let win := (List.range 4).find? fun k =>
      let vb := bits (field set (32 * k) 8) 0 56
      decide (vb ≤ va ∧ va < vb + bits (field set (32 * k + 8) 8) 0 40)
    match win with
    | some k =>
      let perm := field set (32 * k + 24) 8
      let pa := bits (field set (32 * k + 16) 8) 0 52 + (va - bits (field set (32 * k) 8) 0 56)
      if !(bit perm (if acc.writes then 1 else 0)) || !(s.physOk p.part t.level false acc pa) then (s, .error (0x21, va))
      else if s.bad pa n && decide (acc ≠ .write) then (s.memUe pa acc.code, .error (0x90, va)) else (s.chargePort p pa n, .ok pa)
    | none =>
      let s1 := if va / 2 ^ 56 ≠ 0 then s
        else s.chargeLookup (s.islandOf (p.region.getD 0)) (s.pageAcct p) (dieOf (p.region.getD 0)) p.part va
      match s1.translate (dieOf (p.region.getD 0)) p.part t.level false acc va n with
      | (s2, .ok pa) => (s2.chargePort p pa n, .ok pa)
      | (s2, .error (.absent v)) => (s2, .error (0x22, v))
      | (s2, .error (.cause c v)) => (s2, .error (c, v))

/-- The descriptor of a block as an agent on a die meets it (R61), and whether its memory keeps one. -/
def State.keepsDesc (s : State) (die part : Nat) (space va pa : Nat) : Bool :=
  if 0x8000000000000 ≤ pa ∧ pa < 0x8000000000000 + 0x200000 * 192 then
    decide ((pa - 0x8000000000000) % 0x200000 < cStoreOff)
  else decide (pa < 0x8000000000) && decide (space = 0) && s.described die part va

def State.blockDesc (s : State) (die part : Nat) (space va pa : Nat) : BitVec 16 :=
  if s.keepsDesc die part space va pa then s.descAt pa else 0

/-- Whether a physical address lies in a C-store (R61). -/
def inCstore (pa : Nat) : Bool :=
  decide (0x8000000000000 ≤ pa ∧ pa < 0x8000000000000 + 0x200000 * 192) && decide ((pa - 0x8000000000000) % 0x200000 ≥ cStoreOff)

/-- The checks of R213 on the access of an iteration. A descriptor whose SCALE is not 0 is FMT here for RAW too (DESIGN CHOICE,
log 135: R60 and R63 ignore the SCALE of RAW, R213 excepts no format). -/
def State.agCheck (s : State) (p : Page) (t : Thread) (d n : Nat) (off : Int) (acc : Access) : State × Except (Nat × Nat) Nat :=
  let im := p.image
  let a := agAddr im d n off
  let z := 2 ^ agSize im d
  if a % z ≠ 0 then (s, .error (0x03, a))
  else if a < agBase im d ∨ a + z > agBase im d + agLimit im d then (s, .error (0x41, a))
  else
    match s.agTranslate p t d a z acc with
    | (s1, .error e) => (s1, .error e)
    | (s1, .ok pa) =>
      let desc := (s1.blockDesc (dieOf (p.region.getD 0)) p.part (agSpace im d) a pa).toNat
      let fmt := agFmt im d
      let broken := !acc.writes && decide (fmt ≠ 0) &&
        (if inCstore pa then decide (fmt ≠ 1) else decide ((desc % 256 ≠ 0 ∧ desc % 256 ≠ fmt) ∨ desc / 256 ≠ 0))
      if broken then (s1, .error (0x07, a)) else (s1.chargePage p 0x1C 1, .ok pa)

/-- An AG fault aborts the firing (R206). -/
def State.agFault (s : State) (p : Page) (t : Thread) (slot d n : Nat) (g : Ag) (acc : Access) (e : Nat × Nat) (tokIx : Nat) : State :=
  let im := p.image
  s.abortWithRecord t e.1 acc.code (word e.2) p.name
    (stopExt (agIndex im d n 0) (agIndex im d n 1) (agIndex im d n 2) (agIndex im d n 3) (agAddr im d n g.off) slot d true tokIx g.off)

/-- The start of a run: the token gives the run offset (R208, R210 to R212). -/
def agStart (k : Token) : Ag := { busy := true, off := if k.n then 0 else signed 32 k.payload.toNat, null := k.n }

/-- The generator after an access: the next iteration, or idle after the last (R210, R211). -/
def Ag.stepped (g : Ag) (im : List Byte) (d : Nat) : Ag :=
  let n := agIter im d g + 1
  if n ≥ agTotal im d then { g with pos := 1 } else g.at_ im d n

/-- The bytes of an access as tokens; SIZE 0 and 1 are zero-extended (R208). -/
def agRead (bs : List Byte) (size : Nat) : List Token :=
  (List.range (agTokens size)).map fun k => { payload := BitVec.ofNat 32 (leNat ((bs.drop (4 * k)).take 4)) }

/-- Whether the T2 code 0b10 stands in bytes (R67, R213). -/
def hasMark (bs : List Byte) : Bool := bs.any fun b => (List.range 4).any fun k => decide (bits b.toNat (2 * k) 2 = 2)

/-- The bytes of an AG write as buffered stores: null tokens write nothing (R211). -/
def agStores (t : Thread) (pa va size : Nat) (isG : Bool) : Nat → List Token → Thread
  | _, [] => t
  | k, x :: r =>
    let t1 := if x.n then t else t.buffer (pa + 4 * k) (va + 4 * k) isG ((leBytes 4 x.payload.toNat).take (2 ^ min size 2))
    agStores t1 pa va size isG (k + 1) r

/-- A write access of an AG: stores of the firing, with the descriptor of a whole block (R211, R213). -/
def State.agWrite (s : State) (p : Page) (t : Thread) (slot d n : Nat) (g : Ag) (toks : List Token) : Except State (State × Thread) :=
  let im := p.image
  if toks.all Token.n then .ok (s, t)
  else
    match s.agCheck p t d n g.off .write with
    | (s1, .error e) => .error (s1.agFault p t slot d n g .write e 0)
    | (s1, .ok pa) =>
      let a := agAddr im d n g.off
      let whole := decide (agSize im d = 6) && !toks.any Token.n
      if whole && decide (agFmt im d ≠ 0) && !(s1.keepsDesc (dieOf (p.region.getD 0)) p.part (agSpace im d) a pa) then
        .error (s1.agFault p t slot d n g .write (0x07, a) 0)
      else
        let t1 := agStores t pa a (agSize im d) (decide (agSpace im d = 0)) 0 toks
        let t2 := if whole && s1.keepsDesc (dieOf (p.region.getD 0)) p.part (agSpace im d) a pa then
            { t1 with region := t1.region.map fun r => { r with descs := r.descs ++ [(pa / 64, BitVec.ofNat 16 (agFmt im d))] } } else t1
        .ok (s1, t2)

/-- The opcode of the element word in a slot. -/
def slotOp (im : List Byte) (slot : Nat) : Nat := elemWord im slot / 16777216

/-- An AG element performs one access of its run (R208 to R213); a load waits while a consumer or its port lacks room
(R215). A null run makes none. -/
def execAgAccess (page slot : Nat) (s : State) : Out :=
  match s.page? page with
  | none => .next s
  | some p =>
    match s.firingThread p with
    | none => .next s
    | some t =>
      let im := p.image
      let g := p.ag slot
      let d := elemWord im slot % 16
      let n := agIter im d g
      let k := agTokens (agSize im d)
      if p.region.isNone || !g.busy || decide (g.pos = 1) then .next s
      else if slotOp im slot = 0x50 then
        if !g.toks.isEmpty then .next s
        else
          let rank (toks : List Token) : List Token := toks.dropLast ++ (toks.getLast?.map fun x => { x with e := agRank im d n }).toList
          let k0 := (elemConst im slot 0).toNat
          if g.null then .next (s.setPage (p.setAg slot { g.stepped im d with toks := rank (List.replicate k { n := true }) }))
          else
            let first := (rank (List.replicate k {})).take 1
            match s.roomFor p slot [(bits k0 0 9, 1, first), (bits k0 9 9, 1, first)] with
            | none => .next (s.brokenPort p slot [bits k0 0 9, bits k0 9 9])
            | some false => .next s
            | some true =>
              match s.agCheck p t d n g.off .read with
              | (s1, .error e) => .next (s1.agFault p t slot d n g .read e 0)
              | (s1, .ok pa) =>
                let bs := s1.readBytes pa (2 ^ agSize im d)
                let p1 := p.setAg slot { g.stepped im d with toks := rank (agRead bs (agSize im d)) }
                let fm := decide (agFmt im d = 14) && hasMark bs
                .next (s1.setPage { p1 with st := { p1.st with flags := stick p1.st.flags { fm } } })
      else if slotOp im slot = 0x51 then
        if g.toks.length < k then .next s
        else
          match s.agWrite p t slot d n g g.toks with
          | .error s1 => .next s1
          | .ok (s1, t1) =>
            let g1 := g.stepped im d
            let p1 := p.setAg slot (if g1.pos = 1 then {} else { g1 with toks := [] })
            .next ((s1.setPage (if g.toks.all Token.n then p1 else p1.leaves)).setThread t1)
      else if slotOp im slot = 0x52 then
        let dw := (elemConst im slot 0).toNat % 16
        match s.agCheck p t d n g.off .read with
        | (s1, .error e) => .next (s1.agFault p t slot d n g .read e 0)
        | (s1, .ok pa) =>
          let bs := s1.readBytes pa (2 ^ agSize im d)
          let fm := decide (agFmt im d = 14) && hasMark bs
          match s1.agWrite p t slot dw n g (agRead bs (agSize im d)) with
          | .error s2 => .next s2
          | .ok (s2, t1) =>
            let g1 := g.stepped im d
            let p1 := (p.setAg slot (if g1.pos = 1 then {} else g1)).leaves
            .next ((s2.setPage { p1 with st := { p1.st with flags := stick p1.st.flags { fm } } }).setThread t1)
      else .next s

/-- A turn of an AG element: it starts a run from a queue, or moves one token (R210, R211). -/
def agElem (i : Instr) (s : State) (go : Page → Nat → Ag → Option State) : Out :=
  match s.page? s.curPage with
  | none => .fault .noAgent
  | some p =>
    if p.region.isNone || !(wellFormed i) || (s.firingThread p).isNone ||
        p.st.held.any (fun f => decide (f.producer = s.curSlot)) then .next s
    else .next ((go (s.fires p) s.curSlot (p.ag s.curSlot)).getD s)

/-- `agl`: a start token begins a run; then its tokens leave one by one (R210). -/
def execAgl (i : BitVec 4) (s : State) : Out :=
  agElem (.agl i) s fun p slot g =>
    let k0 := (elemConst p.image slot 0).toNat
    let a := bits k0 0 9
    let b := bits k0 9 9
    if !g.busy then
      (operand p slot (.q 0)).map fun k => s.setPage ((p.consume slot [.q 0]).setAg slot (agStart k))
    else
      match g.toks with
      | [] => none
      | k :: rest =>
        match s.roomFor p slot [(a, 1, [k]), (b, 1, [k])] with
        | none => some (s.brokenPort p slot [a, b])
        | some false => none
        | some true =>
          let g1 : Ag := if rest.isEmpty ∧ g.pos = 1 then {} else { g with toks := rest }
          let p1 := ((p.setAg slot g1).sendAll slot slot a [k]).sendAll slot slot b [k]
          some ((if g.null then s.chargePage p 0x17 1 else s).setPage p1)

/-- `ags`: the offset of a run comes from `q1`, then each access gathers its tokens from `q0` (R211). -/
def execAgs (i : BitVec 4) (s : State) : Out :=
  agElem (.ags i) s fun p slot g =>
    let k := agTokens (agSize p.image (elemWord p.image slot % 16))
    if !g.busy then
      (operand p slot (.q 1)).map fun x => s.setPage ((p.consume slot [.q 1]).setAg slot { agStart x with null := false })
    else if g.toks.length ≥ k then none
    else (operand p slot (.q 0)).map fun x => s.setPage ((p.consume slot [.q 0]).setAg slot { g with toks := g.toks ++ [x] })

/-- `agc`: a start token begins a copy run; a null one copies nothing (R212). -/
def execAgc (i : BitVec 4) (s : State) : Out :=
  agElem (.agc i) s fun p slot g =>
    if g.busy then none
    else
      (operand p slot (.q 0)).map fun k =>
        let p1 := p.consume slot [.q 0]
        if k.n then (s.chargePage p 0x17 1).setPage p1 else s.setPage (p1.setAg slot (agStart k))

/-! ### Marker alignment (R160) -/

/-- The operand queues an element word reads (R158, R201 to R212). -/
def readsOf (w : Nat) : List Nat :=
  let op := w / 16777216
  let sel : BitVec 2 := BitVec.ofNat 2 (bits w 4 2)
  let arity := if [0x0F, 0x26, 0x27, 0x29, 0x2A, 0x2C, 0x2D, 0x2E, 0x38, 0x39, 0x3B, 0x3C, 0x45, 0x47].contains op then 1
    else if [0x23, 0x33, 0x40].contains op then 3
    else if op = 0x42 ∧ (sel.toNat = 1 ∨ sel.toNat = 2) then 1 else 2
  if w = 0 ∨ op = 0x54 then []
  else if op = 0x51 then [0, 1]
  else if op ≥ 0x50 then [0]
  else (sources arity sel).filterMap fun x => match x with | .q n => some n | .k _ => none

/-- The consumer fields a slot's markers and tokens go to, with the port a `rout` or `rep` names. -/
def outsOf (im : List Byte) (slot : Nat) : List Nat :=
  let w := elemWord im slot
  let op := w / 16777216
  (if op = 0x55 ∨ op = 0x56 then [256 + 4 * (w % 16)] else []) ++
    (if op = 0x51 ∨ op = 0x52 ∨ op = 0x55 then [] else consumersOf im slot)

/-- Forward inputs and back-edge inputs of a slot (R160). -/
def forwardOf (im : List Byte) (slot : Nat) : List Nat := (readsOf (elemWord im slot)).filter fun q => !(isBackEdge im slot q)
def backOf (im : List Byte) (slot : Nat) : List Nat := (readsOf (elemWord im slot)).filter fun q => isBackEdge im slot q

/-- The marker at the head of a queue. -/
def headMarker (p : Page) (slot q : Nat) : Option Token := ((p.queue slot q).toks.head?).filter Token.m

/-- An element aligns the markers of its forward inputs (R160). Where no marker is taken from `q0`, the emitted marker
carries the first taken marker's payload, or the cut's number (log 100). -/
def State.alignElem (s : State) (p : Page) (slot : Nat) : State :=
  let im := p.image
  let fwd := forwardOf im slot
  let cs := outsOf im slot
  let quiet := !(p.busy slot cs) && p.st.flight.all (fun f => decide (f.producer ≠ slot))
  let heads := fwd.map fun q => headMarker p slot q
  let ready := heads.all Option.isSome && (!fwd.isEmpty || p.st.aligning)
  if !quiet || !ready then s
  else
    let pay := match heads.filterMap id with | k :: _ => k.payload | [] => BitVec.ofNat 32 p.st.cutNum
    let mk : Token := { payload := pay, m := true }
    match s.roomFor p slot (cs.map fun c => (c, 1, [mk])) with
    | none => s.brokenPort p slot cs
    | some false => s
    | some true =>
      let p1 := p.consume slot (fwd.map Src.q)
      let rec_ := (slot, p1.elem slot, (List.range 4).map fun q => p1.queue slot q)
      let p2 := cs.foldl (fun p c => p.sendAll slot slot c [mk]) p1
      let p3 : Page := if p.st.aligning then { p2 with st := { p2.st with marked := slot :: p2.st.marked, recs := rec_ :: p2.st.recs } } else p2
      (s.chargePage p 0x16 1).setPage p3

/-- The marker of a back edge is consumed without a firing (R160 step 5). -/
def State.takeBackMarker (s : State) (p : Page) (slot : Nat) : State :=
  match (backOf p.image slot).find? fun q => (headMarker p slot q).isSome with
  | none => s
  | some q =>
    let p1 := p.consume slot [.q q]
    s.setPage { p1 with st := { p1.st with backDone := (slot, q) :: p1.st.backDone } }

/-- An RSU forwards the markers of its columns and records what its input buffers hold (R160, R180). The marker carries the
payload of its lowest masked column's (DESIGN CHOICE, log 136: R160 takes it from `q0`, which an RSU does not have). -/
def State.alignRsu (s : State) (p : Page) (row : Nat) : State :=
  let r := p.rsu row
  let cols := rsuCols p.image row
  let heads := cols.map fun c => (tabGet [] r.inputs c).head?.filter Token.m
  let out := rsuOut p.image row
  let quiet := r.emit.isEmpty && p.st.flight.all (fun f => decide (f.producer ≠ 64 + row)) &&
    p.st.held.all fun f => decide (f.producer ≠ 64 + row)
  if !quiet || cols.isEmpty || !(bit (pgRsuen p.image) row) || heads.any Option.isNone then s
  else
    let mk : Token := { payload := ((heads.head?.bind id).map Token.payload).getD 0, m := true }
    match s.roomFor p (8 * row + 7) [(out, 1, [mk])] with
    | none => s.brokenPort p (8 * row + 7) [out]
    | some false => s
    | some true =>
      let ins := cols.foldl (fun t c => tabSet t c (tabGet [] r.inputs c).tail) r.inputs
      let p1 := (p.setRsu row { r with inputs := ins }).sendAll (64 + row) (8 * row + 7) out [mk]
      let rec_ : Nat × ElemReg × List Queue := (64 + row, {}, (List.range 8).map fun c => { toks := tabGet [] ins c })
      let p2 : Page := if p.st.aligning then { p1 with st := { p1.st with marked := (64 + row) :: p1.st.marked, recs := rec_ :: p1.st.recs } } else p1
      (s.chargePage p 0x16 1).setPage p2

/-- An element or RSU at a position aligns and forwards one marker (R160); an element that has done so
takes the marker of a back edge. -/
def execMarkerAlign (page pos : Nat) (s : State) : Out :=
  match s.page? page with
  | none => .next s
  | some p =>
    if p.region.isNone then .next s
    else if pos ≥ 64 then .next (if p.st.marked.contains pos ∧ p.st.aligning then s else s.alignRsu p (pos - 64))
    else if elemWord p.image pos = 0 ∨ slotOp p.image pos = 0x54 then .next s
    else if p.st.aligning && !(p.st.marked.contains pos) then .next (s.alignElem p pos)
    else if (backOf p.image pos).any fun q => (headMarker p pos q).isSome then .next (s.takeBackMarker p pos)
    else if p.st.aligning then .next s
    else .next (s.alignElem p pos)

/-- Whether every element and RSU of a page has forwarded its marker (R251 step 1). -/
def Page.markersDone (p : Page) : Bool :=
  (List.range (pgIcount p.image + 1)).all (fun k => decide (elemWord p.image k = 0) || p.st.marked.contains k) &&
    ((List.range 8).all fun r => !(bit (pgRsuen p.image) r) || decide (rsuMask p.image r = 0) || p.st.marked.contains (64 + r)) &&
    p.st.flight.all fun f => match f.dest with | .port _ => false | _ => true

end Sys2Proof.Machine
end

