-- ==== Sys2Proof/Machine/Tensor.lean ====
section
/-! DEFINITION. Tensor shape records (R216, R217) and the reads and writes that the engines make
through them (R60 to R63, R123, R312). -/

namespace Sys2Proof.Machine

/-- A shape record (R216). `clean` says that no reserved bit is set and SPACE is assigned. -/
structure Tensor where
  base : Int
  space : Nat
  rowb : Nat
  fmt : Nat
  e1 : Nat
  e2 : Nat
  e3 : Nat
  s1 : Int
  s2 : Int
  s3 : Int
  clean : Bool
  deriving DecidableEq, Repr

/-- The shape record in 64 bytes, its BASE moved by whole blocks (R216, R312). -/
def tensorOf (bs : List Byte) (blocks : Int) : Tensor :=
  let w0 := field bs 0 8
  let w1 := field bs 8 8
  { base := (bits w0 0 56 : Int) + 64 * blocks, space := bits w0 56 3, rowb := bits w1 0 32, fmt := bits w1 32 8
    e1 := field bs 0x10 4, e2 := field bs 0x14 4, e3 := field bs 0x18 4
    s1 := signed 64 (field bs 0x20 8), s2 := signed 64 (field bs 0x28 8), s3 := signed 64 (field bs 0x30 8)
    clean := decide (bits w0 59 5 = 0 ∧ bits w1 40 24 = 0 ∧ field bs 0x1C 4 = 0 ∧ field bs 0x38 8 = 0 ∧ bits w0 56 3 ≤ 3) }

/-- Rows, bytes, and whether the record moves nothing (R217 item 2). -/
def Tensor.rows (t : Tensor) : Nat := t.e1 * t.e2 * t.e3
def Tensor.bytes (t : Tensor) : Nat := t.rowb * t.rows
def Tensor.none_ (t : Tensor) : Bool := t.bytes = 0

/-- The address of row `i`, index 1 innermost (R216, R312). -/
def Tensor.row (t : Tensor) (i : Nat) : Int :=
  t.base + (i % t.e1 : Nat) * t.s1 + (i / t.e1 % t.e2 : Nat) * t.s2 + (i / (t.e1 * t.e2) : Nat) * t.s3

/-- The address of the byte at a position of the rows taken in order. -/
def Tensor.at_ (t : Tensor) (p : Nat) : Nat := (t.row (p / t.rowb)).toNat + p % t.rowb

/-- The lowest and the end of the addresses of a record. -/
def Tensor.lowest (t : Tensor) : Int :=
  t.base + min 0 (t.s1 * (t.e1 - 1)) + min 0 (t.s2 * (t.e2 - 1)) + min 0 (t.s3 * (t.e3 - 1))
def Tensor.endAddr (t : Tensor) : Int :=
  t.base + max 0 (t.s1 * (t.e1 - 1)) + max 0 (t.s2 * (t.e2 - 1)) + max 0 (t.s3 * (t.e3 - 1)) + t.rowb

/-- The spans of a written record (R217 item 4). -/
def Tensor.spansOk (t : Tensor) : Bool :=
  let sp1 := t.s1.natAbs * (t.e1 - 1) + t.rowb
  let sp2 := t.s2.natAbs * (t.e2 - 1) + sp1
  (decide (t.e1 ≤ 1) || decide (t.rowb ≤ t.s1.natAbs)) && (decide (t.e2 ≤ 1) || decide (sp1 ≤ t.s2.natAbs)) &&
    (decide (t.e3 ≤ 1) || decide (sp2 ≤ t.s3.natAbs))

/-- The checks of R217 in order: the cause of the first that fails. -/
def Tensor.check (t : Tensor) (written mayW : Bool) : Option Nat :=
  let unit : Int := if t.fmt = 0 then 4 else 64
  if !t.clean then some 0x06
  else if !(formatAssigned t.fmt) then some 0x07
  else if t.none_ then none
  else if t.base % unit ≠ 0 ∨ t.s1 % unit ≠ 0 ∨ t.s2 % unit ≠ 0 ∨ t.s3 % unit ≠ 0 then some 0x06
  else if written && !t.spansOk then some 0x06
  else if written && !mayW && decide (t.space = 3) then some 0x21
  else if t.lowest < 0 ∨ t.endAddr > (if t.space = 0 then 2 ^ 56 else storeSize t.space : Nat) then some 0x21
  else none

/-- Whose work an engine access is: partition, level and tile, the account it is charged to, and the MSE that makes it
(R370, R127, R22). -/
structure Agent where
  part : Nat
  level : Nat
  tile : Nat
  acct : Nat := 64
  mse : Option Nat := none
  deriving DecidableEq, Repr

def Cmd.agent (c : Cmd) : Agent := { part := c.name.part, level := c.level, tile := c.name.thread / 4, acct := c.name.acct }

/-- The island at whose meter an agent's work is charged: its tile, or the stack of the MSE (R417). -/
def State.islandAt (s : State) (g : Agent) : Nat :=
  match g.mse with
  | some m => 240 + m / 2
  | none => s.islandOf g.tile

/-- The die an agent stands on: that of its tile, or of the stack of the MSE (R316). -/
def Agent.die (g : Agent) : Nat :=
  match g.mse with
  | some m => m / 8
  | none => dieOf g.tile

/-- The charges of an engine's access (R151, R335): an MSE belongs to no tile and reaches every store over the NoC. -/
def State.chargeEngine (s : State) (g : Agent) (pa n : Nat) : State :=
  s.chargeFrom (s.islandAt g) g.acct g.die (if g.mse.isSome then none else some g.tile) pa n false

/-- The charges of an engine's writes, each line once. -/
def State.chargeWrites (s : State) (g : Agent) (cells : List (Nat × Byte)) : State :=
  ((cells.map fun c => c.1 / 64).eraseDups).foldl (fun s l => s.chargeEngine g (64 * l) 64) s

/-- The physical address of `n` bytes at an address of a record's space, checked (R127, R149) and charged. -/
def State.engineAddr (s : State) (g : Agent) (space : Nat) (acc : Access) (addr n : Nat) : State × Except Miss Nat :=
  if space = 0 then
    let s0 := if addr / 2 ^ 56 ≠ 0 then s else s.chargeLookup (s.islandAt g) g.acct g.die g.part addr
    match s0.translate g.die g.part g.level true acc addr n with
    | (s1, .error m) => (s1, .error m)
    | (s1, .ok pa) => (s1.chargeEngine g pa n, .ok pa)
  else
    let pa := storeBase g.tile space + addr
    if s.bad pa n && decide (acc ≠ .write) then (s.memUe pa acc.code, .error (.cause 0x90 addr))
    else (s.chargeEngine g pa n, .ok pa)

/-- A failed engine access: its kind, its cause and its value; a missing page is XLATE_ABORT (R146, R363). -/
structure EngFault where
  access : Nat := 0
  cause : Nat
  value : Nat
  deriving DecidableEq, Repr

/-- The fault of a failed access of a kind. -/
def Miss.fault (acc : Access) : Miss → EngFault
  | .absent va => { access := acc.code, cause := 0x22, value := va }
  | .cause c v => { access := acc.code, cause := c, value := v }

/-- The runs of consecutive source bytes, cut at 64-byte blocks, of `k` bytes from position `p`. -/
def Tensor.runs (t : Tensor) : Nat → Nat → Nat → List (Nat × Nat)
  | 0, _, _ => []
  | f + 1, p, k =>
    if k = 0 then []
    else
      let a := t.at_ p
      let n := min k (min (t.rowb - p % t.rowb) (64 - a % 64))
      (a, n) :: t.runs f (p + n) (k - n)

/-- Reads runs at the end of the publication order (R123), imposing a format other than RAW (R63): the
bytes, and the descriptor of each run's block with whether the run is the whole block. A C-store word has no descriptor and
meets the imposed format as RAW (log 104). -/
def State.readRuns (s : State) (g : Agent) (space imposed : Nat) :
    List (Nat × Nat) → State × Except EngFault (List Byte × List (BitVec 16 × Bool))
  | [] => (s, .ok ([], []))
  | (a, n) :: r =>
    match s.engineAddr g space .read a n with
    | (s1, .error m) => (s1, .error (m.fault .read))
    | (s1, .ok pa) =>
      let d := s1.blockDesc g.die g.part space a pa
      if imposed ≠ 0 ∧ (imposeFmt imposed d).isNone then (s1, .error { cause := 0x07, value := a })
      else
        match s1.readRuns g space imposed r with
        | (s2, .error e) => (s2, .error e)
        | (s2, .ok (bs, ds)) => (s2, .ok (s1.readBytes pa n ++ bs, (d, decide (n = 64)) :: ds))

/-- Writes a piece of a block as one publication; a whole block that came whole from one block takes
its descriptor with it, and FMT where the memory keeps none (R62, R312). DESIGN CHOICE: a block assembled from pieces of
several blocks keeps its old descriptor (log 125). -/
def State.writePiece (s : State) (g : Agent) (space addr : Nat) (bs : List Byte) (ds : List (BitVec 16 × Bool)) :
    State × Option EngFault :=
  match s.engineAddr g space .write addr bs.length with
  | (s1, .error m) => (s1, some (m.fault .write))
  | (s1, .ok pa) =>
    let keeps := s1.keepsDesc g.die g.part space addr pa
    match ds with
    | [(d, true)] =>
      if bs.length ≠ 64 then (s1.publish (cellsAt pa bs), none)
      else if descFmt d ≠ 0 ∧ !keeps then (s1, some { access := 1, cause := 0x07, value := addr })
      else (s1.publish (cellsAt pa bs) (if keeps then [(pa / 64, d)] else []), none)
    | _ => (s1.publish (cellsAt pa bs), none)

/-- Moves bytes from position `so + p` of one record to position `dst0 + p` of another, `left` of them,
in pieces cut at the destination's blocks, each read when it is copied (R312, R319): how many bytes
were written, and the fault that stopped it. -/
def moveBytes (g : Agent) (acct cls : Nat) (src dst : Tensor) (so dst0 : Nat) : Nat → Nat → Nat → State → State × Nat × Option EngFault
  | 0, p, _, s => (s, p, none)
  | f + 1, p, left, s =>
    if left = 0 then (s, p, none)
    else
      let a := dst.at_ (dst0 + p)
      let k := min left (min (dst.rowb - (dst0 + p) % dst.rowb) (64 - a % 64))
      match s.readRuns g src.space src.fmt (src.runs k (so + p) k) with
      | (s1, .error e) => (s1, p, some e)
      | (s1, .ok (bs, ds)) =>
        match s1.writePiece g dst.space a bs ds with
        | (s2, some e) => (s2, p, some e)
        | (s2, none) => moveBytes g acct cls src dst so dst0 f (p + k) (left - k) (s2.charge (s2.islandAt g) acct cls 1)

/-- Block `k` of a record: whole 64-byte pieces of each row, row by row. -/
def Tensor.block? (t : Tensor) (k : Nat) : Option Nat :=
  if k < t.rowb / 64 * t.rows then some ((t.row (k / (t.rowb / 64))).toNat + 64 * (k % (t.rowb / 64))) else none

/-- Reads a record at s[a] as a load (R216, R310): ALIGN where it is not aligned to 64. -/
def withRecord (i : Instr) (s : State) (t : Thread) (va : Word) (n : Nat) (k : State → List Byte → State) : State :=
  if va.toNat % 64 ≠ 0 then s.raise t i 0x03 va
  else
    match s.loadGlobal t va.toNat 64 with
    | (s1, .error m) => s1.missed t i .read m
    | (s1, .ok bs) =>
      if n ≤ 64 then k s1 bs
      else
        match s1.loadGlobal t (va.toNat + 64) 64 with
        | (s2, .error m) => s2.missed t i .read m
        | (s2, .ok cs) => k s2 (bs ++ cs)

/-- A failed check of a record: FMT names the record (R354), other values are free (log 7). -/
def State.recordFault (s : State) (t : Thread) (i : Instr) (cause : Nat) (va : Word) : State :=
  if cause = 0x07 then s.raise t i cause va else s.raiseFree t i cause

end Sys2Proof.Machine
end

