-- ==== Sys2Proof/Machine/Movement.lean ====
section
/-! DEFINITION. The copy engine (R310 to R315). -/

namespace Sys2Proof.Machine

/-! ### Issue (R310, R311, R313) -/

/-- Fields of a completion operand (R311). -/
def compOff (v : Word) : Nat := wbits v 0 20
def compEn (v : Word) : Bool := bit v.toNat 20
def compVal (v : Word) : Nat := wbits v 32 32

/-- The checks of R311; `credit` says that the copy credits an expectation. -/
def compOk (v : Word) (credit : Bool) : Bool :=
  decide (wbits v 21 11 = 0) && (!(compEn v) || (decide (compOff v % 4 = 0) && !credit))

/-- The addresses of a record's bytes, in the order in which they are moved. -/
def Tensor.addrs (r : Tensor) : List Int := (List.range r.bytes).map fun p => r.row (p / r.rowb) + (p % r.rowb : Nat)

/-- Two records of one store overlap without coinciding exactly (R310): their spans, gaps included, meet, and not every
byte is rewritten with its own value. -/
def partialOverlap (x y : Tensor) : Bool :=
  !x.none_ && decide (x.lowest < y.endAddr ∧ y.lowest < x.endAddr) && decide (x.addrs ≠ y.addrs)

/-- The issue of a copy with block offsets (R310, R312). -/
def copyIssue (i : Instr) (a b : BitVec 5) (credit : Bool) (e : BitVec 2) (soff doff : Int) (s : State) : Out :=
  issue i 0 s fun s t =>
    let va := t.reg a.toNat
    let comp := t.reg b.toNat
    if !(compOk comp credit) then s.raiseFree t i 0x06
    else
      withRecord i s t va 128 fun s bs =>
        let src := tensorOf (bs.take 64) soff
        let dst := tensorOf (bs.drop 64) doff
        match src.check false true, dst.check true true with
        | some c, _ => s.recordFault t i c va
        | none, some c => s.recordFault t i c (va + 64)
        | none, none =>
          if src.bytes ≠ dst.bytes then s.raiseFree t i 0x06
          else if dst.fmt ≠ 0 ∧ dst.fmt ≠ src.fmt then s.raise t i 0x07 (va + 64)
          else if decide (src.space ≠ 0 ∧ src.space = dst.space) && partialOverlap src dst then s.raiseFree t i 0x05
          else enqueue .cp i s t (.copy (bs.take 64) (bs.drop 64) soff doff (if credit then some e.toNat else none) comp) [] []

/-- `cp` (R310, R312). -/
def execCp (a b : BitVec 5) (c : BitVec 1) (e : BitVec 2) (s : State) : Out :=
  copyIssue (.cp a b c e) a b (decide (c = 1)) e 0 0 s

/-- `cp` with block offsets (R312). -/
def execCpOffset (a b : BitVec 5) (c : BitVec 1) (e : BitVec 2) (x : Half) (s : State) : Out :=
  copyIssue (.cpOffset a b c e x) a b (decide (c = 1)) e (signed 16 (xbits x 0 16)) (signed 16 (xbits x 16 16)) s

/-- `cp.expect` (R313). -/
def execCpExpect (a b : BitVec 5) (e : BitVec 2) (x : Half) (s : State) : Out :=
  issue (.cpExpect a b e x) 0 s fun s t =>
    let i := Instr.cpExpect a b e x
    let n := (t.reg a.toNat).toNat
    let comp := t.reg b.toNat
    let wd := xbits x 0 20
    if n = 0 ∨ n ≥ 2 ^ 48 then s.raiseFree t i 0x06
    else if !(compOk comp false) || !(compEn comp) then s.raiseFree t i 0x06
    else enqueue .cp i s t (.expect e.toNat n comp ((if wd = 0 then 1000 else wd) * 1000)) [] []

/-! ### Performing a copy (R312, R314) -/

/-- The completion word, one publication (R312). -/
def State.complete (s : State) (acct tile : Nat) (comp : Word) : State :=
  (s.charge (s.islandOf tile) acct 0x03 1).publish (cellsAt (storeBase tile 1 + compOff comp) (leBytes 4 (compVal comp)))

/-- The bytes of a record that lie in one own store of a tile: their positions in the record and their offsets there
(R310). -/
def State.ownBytes (s : State) (g : Agent) (space : Nat) (r : Tensor) (acc : Access) : List (Nat × Nat) :=
  (List.range r.bytes).filterMap fun p =>
    match (s.engineAddr g r.space acc (r.at_ p) 1).2 with
    | .ok pa => if storeBase g.tile space ≤ pa ∧ pa < storeBase g.tile space + storeSize space then some (p, pa - storeBase g.tile space) else none
    | .error _ => none

/-- A partial overlap of the physical ranges, gaps included, within one own store (R310). -/
def State.physOverlap (s : State) (g : Agent) (src dst : Tensor) : Bool :=
  decide (src.space = 0 ∨ dst.space = 0) && [1, 2, 3].any fun sp =>
    let x := s.ownBytes g sp src .read
    let y := s.ownBytes g sp dst .write
    let low (l : List (Nat × Nat)) : Nat := l.foldl (fun m e => min m e.2) (storeSize sp)
    let high (l : List (Nat × Nat)) : Nat := l.foldl (fun m e => max m (e.2 + 1)) 0
    decide (x ≠ []) && decide (y ≠ []) && decide (low x < high y ∧ low y < high x) && decide (x ≠ y)

/-- An expectation of a thread, and the thread with one changed (R313). -/
def Thread.expect (t : Thread) (e : Nat) : Expect := t.expects.toArray.getD e {}
def Thread.setExpect (t : Thread) (e : Nat) (v : Expect) : Thread := { t with expects := t.expects.setIfInBounds e v }

/-- The bytes a copy wrote lower its expectation (R314): at 0 the completion word is written and the
expectation becomes IDLE. -/
def State.credited (s : State) (c : Cmd) (e n : Nat) : State :=
  match s.thread? c.name.thread with
  | none => s
  | some t =>
    let x := t.expect e
    if x.remaining ≤ n then (s.complete c.name.acct t.tile x.completion).setThread (t.setExpect e {})
    else s.setThread (t.setExpect e { x with remaining := x.remaining - n })

/-- Performs a `cp` (R312, R314). -/
def performCopy (s : State) (c : Cmd) (src dst : Tensor) (credit : Option Nat) (comp : Word) : State :=
  let tile := c.name.thread / 4
  let x := ((s.thread? c.name.thread).map fun t => t.expect (credit.getD 0)).getD {}
  let total := src.bytes
  let first := word (dst.at_ 0)
  if credit.isSome && !x.armed then s.commandFault .cp c 0x61 first
  else if s.physOverlap c.agent src dst then s.commandFaultFree .cp c 0x05
  else
    let limit := if credit.isSome then min total x.remaining else total
    match moveBytes c.agent c.name.acct 0x38 src dst 0 0 limit 0 limit s with
    | (s1, done, some f) =>
      let s2 := match credit with | some e => s1.credited c e done | none => s1
      s2.commandFault .cp c f.cause (word f.value) f.access
    | (s1, done, none) =>
      match credit with
      | some e =>
        let s2 := s1.credited c e done
        if done < total then s2.commandFault .cp c 0x61 (word (dst.at_ done)) else s2.completed c
      | none => (if compEn comp then s1.complete c.name.acct tile comp else s1).completed c

/-- Performs a `cp.expect` (R313): an ARMED expectation is BADSTATUS. -/
def performExpect (s : State) (c : Cmd) (e n : Nat) (comp : Word) (watchdog : Nat) : State :=
  match s.thread? c.name.thread with
  | none => s
  | some t =>
    if (t.expect e).armed then s.commandFaultFree .cp c 0x04
    else (s.setThread (t.setExpect e { armed := true, remaining := n, completion := comp, watchdog, name := c.name, inRegion := c.inRegion })).completed c

/-- The copy engine performs a thread's next command whole (R312, log 10). -/
def performMovement (s : State) (c : Cmd) : State :=
  match c.op with
  | .copy src dst soff doff credit comp => performCopy s c (tensorOf src soff) (tensorOf dst doff) credit comp
  | .expect e n comp wd => performExpect s c e n comp wd
  | _ => s

def execCopyPerform (tile thread : Nat) (s : State) : Out := perform .cp tile thread s performMovement

/-- The watchdog of an ARMED expectation has run down (R314, R315): the expectation becomes IDLE, and COPY_SHORT names the
`cp.expect`. -/
def State.copyShort (s : State) (thread e : Nat) : State :=
  match s.thread? thread with
  | none => s
  | some t =>
    let x := t.expect e
    if !x.armed || decide (x.watchdog ≠ 0) || decide (t.state = .stopped) then s
    else
      let c : Cmd := { id := 0, name := x.name, op := .expect e x.remaining x.completion 0, inRegion := x.inRegion }
      (s.setThread (t.setExpect e {})).commandFault .cp c 0x62 (word x.remaining)

/-- COPY_SHORT (R314). -/
def execCopyShort (thread e : Nat) (s : State) : Out := .next (s.copyShort thread e)

end Sys2Proof.Machine
end

