-- ==== Sys2Proof/Machine/Pages.lean ====
section
/-! DEFINITION. Pages and Dione: the checks of a page (R51, R179, R199, R214), its binding (R198), and
its placement and removal (R243 to R245, R395). -/

namespace Sys2Proof.Machine

/-! ### The checks of a page: offsets of words, and whether each breaks a rule -/

/-- Slots up to ICOUNT that hold an operation other than `nop`. -/
def slotUsed (im : List Byte) (slot : Nat) : Bool := decide (slot ≤ pgIcount im) && decide (elemWord im slot ≠ 0)

/-- Whether a consumer field of an element at a slot may stand (R51, R44, R179, R199). -/
def consumerOk (im : List Byte) (slot c : Nat) : Bool :=
  if c = 0x1FF then true
  else if c < 256 then slotUsed im (c / 4)
  else
    let ix := c / 4 % 64
    decide (c % 4 = 0) &&
      (if ix < 16 then decide (ix < pgPorts im) && decide (portKind im ix = 0 ∧ portDir im ix = 1 ∧ portSlot im ix = slot)
       else if ix < 24 then
        bit (pgRsuen im) (ix - 16) && decide (slot / 8 = ix - 16) && bit (bits (rsuWord im (ix - 16)) 17 8) (slot % 8)
       else if ix < 32 then decide (ix - 16 < pgPorts im) && decide (portKind im (ix - 16) = 1 ∧ portDir im (ix - 16) = 1 ∧ portSlot im (ix - 16) = slot)
       else decide (ix = 63))

/-- Consumers A and B together (R51). -/
def consumersOk (im : List Byte) (slot a b : Nat) : Bool :=
  consumerOk im slot a && consumerOk im slot b && (decide (a ≠ b) || decide (a = 0x1FF ∨ a = 0x1FC))

/-- The descriptor an AG element reads or writes with, by direction (R210 to R212, R214). -/
def agDescs (im : List Byte) (slot : Nat) : List (Nat × Nat) :=
  let d := elemWord im slot % 16
  match slotOp im slot with
  | 0x50 => [(d, 0)]
  | 0x51 => [(d, 1)]
  | 0x52 => [(d, 0), ((elemConst im slot 0).toNat % 16, 1)]
  | _ => []

/-- The element word of a configured slot (R43 to R46, R51, R199). -/
def elementOk (im : List Byte) (slot : Nat) : Bool :=
  let w := elemWord im slot
  let op := w / 16777216
  let a := bits w 15 9
  let b := bits w 6 9
  let m := w % 16
  if w = 0 then true
  else
    match decodeElem (BitVec.ofNat 32 w) with
    | .error _ => false
    | .ok i =>
      wellFormed i && consumersOk im slot a b &&
      (if op = 0x50 ∨ op = 0x51 ∨ op = 0x52 then
        decide (a = 0x1FF ∧ b = 0x1FF ∧ pgKind im = 1 ∧ (slot % 8 = 0 ∨ slot % 8 = 7)) &&
          (agDescs im slot).all fun e => decide (e.1 < pgAgcount im + 1 ∧ agSlot im e.1 = slot ∧ agDir im e.1 = e.2)
       else if op = 0x54 then decide (m < pgPorts im ∧ portDir im m = 0 ∧ portKind im m = 0 ∧ portSlot im m = slot)
       else if op = 0x55 then decide (a = 0x1FF ∧ b = 0x1FF ∧ m < pgPorts im ∧ portDir im m = 1 ∧ portKind im m = 0 ∧ portSlot im m = slot)
       else if op = 0x56 then decide (m < pgPorts im ∧ portDir im m = 1 ∧ portKind im m = 1 ∧ portSlot im m = slot)
       else true)

/-- The constants of an AG element (R210, R212, R214). -/
def agConstOk (im : List Byte) (slot : Nat) : Bool :=
  let k := (elemConst im slot 0).toNat
  match slotOp im slot with
  | 0x50 => consumersOk im slot (bits k 0 9) (bits k 9 9) && decide (bits k 18 14 = 0)
  | 0x52 =>
    let r := elemWord im slot % 16
    let w := k % 16
    decide (k < 16) && decide (agSize im r = agSize im w ∧ agTotal im r = agTotal im w)
  | _ => true

/-- An RSU's configuration word (R178, R179). -/
def rsuOk (im : List Byte) (row : Nat) : Bool :=
  let w := rsuWord im row
  let op := bits w 0 8
  let out := bits w 8 9
  let ix := out / 4 % 64
  decide (8 * row + 7 ≤ pgIcount im) &&
  [1, 2, 3, 4, 8, 9, 10, 11, 12, 13, 14, 15].contains (op % 128) && decide (bits w 28 4 = 0) &&
  decide (bits w 25 3 ≤ 5) && (decide (bits w 25 3 = 0) || decide (op % 128 = 1 ∨ op % 128 = 4)) &&
  (if out < 256 then slotUsed im (out / 4)
   else decide (out % 4 = 0) && decide (out ≠ 0x1FF) &&
    (if ix < 16 then decide (ix < pgPorts im) && decide (portKind im ix = 0 ∧ portDir im ix = 1)
     else if 24 ≤ ix ∧ ix < 32 then decide (ix - 16 < pgPorts im) && decide (portKind im (ix - 16) = 1 ∧ portDir im (ix - 16) = 1)
     else decide (ix = 63)))

/-- Word 1 of an initial token (R47, R51). -/
def initialOk (im : List Byte) (k : Nat) : Bool :=
  let w := field im (0x510 + 8 * k + 4) 4
  let c := bits w 16 9
  decide (bits w 9 7 = 0 ∧ bits w 25 7 = 0) && !(bit w 7) && decide (c < 256) && slotUsed im (c / 4) &&
    decide (((List.range (k + 1)).filter fun j => decide (bits (field im (0x510 + 8 * j + 4) 4) 16 9 = c)).length ≤ 4)

/-- The words of a loop-nest descriptor, by offset in it, and whether each fails; `windows` is the size of `.kywin` (R48,
R51, R214). -/
def descriptorChecks (im : List Byte) (windows d : Nat) : List (Nat × Bool) :=
  let unit := if agSize im d ≤ 6 then 2 ^ agSize im d else 1
  [(0, decide (agBase im d % unit ≠ 0)),
   (4, decide (agSpace im d > 2 ∨ bits (agField im d 0 8) 60 4 ≠ 0)),
   (12, decide (agSize im d > 6) || !(formatAssigned (agFmt im d)) || !([0x50, 0x51, 0x52].contains (slotOp im (agSlot im d))) ||
     decide (agSlot im d > pgIcount im) || (decide (agSpace im d = 0) && decide (128 * (agWset im d + 1) > windows)))] ++
  (List.range 4).map (fun k => (0x10 + 4 * k, decide (agCount im d k = 0))) ++
  (List.range 4).map fun k => (0x20 + 8 * k, decide (agStride im d k % unit ≠ 0))

/-- The elements that serve an output entry, or the `rin`s that name an input entry (R199). -/
def portServers (im : List Byte) (p : Nat) : List Nat :=
  (List.range 64).filter fun k => slotUsed im k &&
    (let w := elemWord im k
     let op := w / 16777216
     let cs := if op = 0x50 then consumersOf im k else [bits w 15 9, bits w 6 9]
     if portDir im p = 0 then decide (op = 0x54 ∧ w % 16 = p)
     else if portKind im p = 0 then decide (op = 0x55 ∧ w % 16 = p) || cs.contains (256 + 4 * p)
     else decide (op = 0x56 ∧ w % 16 = p) || cs.contains (256 + 4 * (p + 16)))

/-- The words of a port-table entry in use and whether each fails (R49, R51, R199): an output entry is served by its SLOT,
whether or not an RSU names it too. -/
def portChecks (im : List Byte) (p : Nat) : List (Nat × Bool) :=
  let w0 := portWord im p 0
  let k := portKind im p
  [(0, !(bit w0 0) || bit w0 15 || decide (bits w0 22 10 ≠ 0 ∨ k > 1) || (!(portTchk im p) && decide (portTag im p ≠ 0)) ||
      (portBack im p && decide (portDir im p = 1)) || (decide (k ≠ 0) && decide (portDir im p = 0 ∨ p < 8)) ||
      decide (portServers im p ≠ [portSlot im p])),
   (1, decide (bits (portWord im p 1) 18 14 ≠ 0 ∨ portTps im p = 0 ∨ portTps im p > 4096 ∨ portWidth im p ≠ k)),
   (2, decide (portWord im p 2 ≠ 0)), (3, decide (portWord im p 3 ≠ 0))]

/-- Every check of a page as (offset of a word, whether it fails) (R51). Reserved bits are checked in unused token entries and
descriptors too. FLAGS [9] BACK of the header is not held against the BACK bits of the port table, which alone count (DESIGN
CHOICE, log 134: R41 and R49 give both and no check). -/
def pageChecks (im : List Byte) (windows : Nat) : List (Nat × Bool) :=
  let h := field im 0 4
  let c := field im 4 4
  let nz (off : Nat) : Bool := decide (field im off 4 ≠ 0)
  [(0, decide (pgKind im > 1 ∨ pgPorts im > 16 ∨ (pgKind im = 0 ∧ pgAgcount im ≠ 0) ∨ bits h 11 3 ≠ 0 ∨ bits h 0 8 ≠ 1)),
   (4, decide (pgRnd im > 4 ∨ bits c 3 5 ≠ 0 ∨ bit c 15 ∨ bits c 24 8 ≠ 0 ∨ pgNtok im > 64 ∨ (!(pgInit im) ∧ pgNtok im ≠ 0))),
   (8, nz 8), (12, nz 12)] ++
  (List.range 64).map (fun k => (0x10 + 4 * k, if k ≤ pgIcount im then !(elementOk im k) else nz (0x10 + 4 * k))) ++
  (List.range 64).flatMap (fun k => (List.range 4).map fun j =>
    (0x110 + 16 * k + 4 * j, (decide (k > pgIcount im) && nz (0x110 + 16 * k + 4 * j)) || (decide (j = 0) && slotUsed im k && !(agConstOk im k)))) ++
  (List.range 8).map (fun r => (0x110 + 16 * (8 * r + 7) + 12, bit (pgRsuen im) r && !(rsuOk im r))) ++
  (List.range 64).map (fun k => (0x510 + 8 * k + 4, if k < pgNtok im then !(initialOk im k)
    else let w := field im (0x510 + 8 * k + 4) 4; decide (bits w 9 7 ≠ 0 ∨ bits w 25 7 ≠ 0))) ++
  (List.range 16).flatMap (fun d => if pgKind im = 1 ∧ d ≤ pgAgcount im then
    (descriptorChecks im windows d).map fun c => (0x710 + 64 * d + c.1, c.2)
    else [(0x710 + 64 * d + 4, decide (bits (agField im d 0 8) 60 4 ≠ 0))]) ++
  (List.range 16).flatMap (fun p => if p < pgPorts im then (portChecks im p).map fun c => (0xB10 + 16 * p + 4 * c.1, c.2)
    else (List.range 4).map fun w => (0xB10 + 16 * p + 4 * w, decide (portWord im p w ≠ 0))) ++
  (List.range 252).map (fun k =>
    let off := 0xC10 + 4 * k
    let f (half : Nat) : Bool :=
      let o := off + 2 * half - 0xC20
      decide (o / 32 ≥ pgPorts im ∨ o % 32 / 2 ≥ pgPhases im) && decide (field im (off + 2 * half) 2 ≠ 0)
    (off, if !(pgMon im) then nz off
          else if off = 0xC10 then decide (field im off 4 ≥ 16)
          else if off < 0xC20 ∨ off ≥ 0xE20 then nz off
          else f 0 || f 1))

/-- The offset of the first failing word of a page, if any (R51). -/
def pageBad? (im : List Byte) (windows : Nat) : Option Nat :=
  (((pageChecks im windows).filter Prod.snd).map Prod.fst).min?

/-- A failed binding: its cause and entry, the lowest entry first (R198). -/
def bindBad? (im : List Byte) (t : Thread) : Option (Nat × Nat) :=
  (List.range (pgPorts im)).findSome? fun p =>
    let h := t.handle (portHandle im p)
    if !h.bound then some (0x04, p)
    else if h.role ≠ portDir im p ∨ (portKind im p = 0 ∧ h.nrep ≠ 0) ∨ h.slot64 < (portTps im p + 15) / 16 + 1 then some (0x06, p)
    else none

/-! ### Removal (R245, R395) -/

/-- Tokens already emitted travel on to their landing buffers or ports (R245). -/
def State.drain (s : State) (id : Nat) : Nat → State
  | 0 => s
  | n + 1 =>
    match s.page? id with
    | none => s
    | some p => if p.st.flight = [] then s else (s.arrive p 0).drain id n

/-- The end of a configuration phase: its four counts, saturated, stand in a PHASE record (R386, R395), written where the
region's tile enables the kind. The cycles of a save are LOAD cycles, whose number the spec does not give (log 113). -/
def State.phaseEnds (s : State) (p : Page) (region : Nat) (save : Bool) : State :=
  let saved := if save then (Config.freeWord s.fresh).toNat % 529 else 0
  let cap (n : Nat) : Nat := min n (2 ^ 32 - 1)
  let tl := (s.tile region).addPhase saved 0 0 0 saved
  let r : TraceRec := ⟨word (9 + p.name.thread % 4 * 16 + s.dev.time % 2 ^ 48 * 65536),
    word (cap (p.phase.load + saved) + cap p.phase.fill * 2 ^ 32),
    word (p.name.seq.toNat + p.ordinal % 65536 * 2 ^ 32 + p.index % 65536 * 2 ^ 48), word (cap p.phase.steady + cap p.phase.drain * 2 ^ 32)⟩
  let tl2 := if bit tl.trcCtl.toNat 0 && bit tl.trcCtl.toNat 10 then tl.traceRecord (Config.crowded s.steps tl.trcRecent) r else tl
  { s.setTile region tl2 with fresh := s.fresh + 1 }

/-- The 64-byte lines of a page's saved region state: 32 KiB, and its chain of 4 KiB blocks (R368). -/
def Page.saveLines (p : Page) : Nat := 512 + 64 * ((p.st.backRecs.length - 374 + 510) / 511)

/-- A resident page is stopped, drained and saved, and its region is free (R245); the region keeps its flags and its
rounding mode until the next page. A page that is discarded (R234, R255) is not saved. -/
def State.evict (s : State) (id : Nat) (save : Bool := true) : State :=
  match s.page? id with
  | none => s
  | some p0 =>
    let s1 := s.drain id p0.st.flight.length
    match s1.page? id with
    | none => s1
    | some p =>
      match p.region with
      | none => s1
      | some r =>
        let s2 := (if save then s1.chargePage p 0x22 p.saveLines else s1).phaseEnds p r save
        (s2.setTile r { s2.tile r with rgFlags := p.st.flags, rgRnd := p.st.rnd }).setPage
          { p with region := none, lastRegion := some r, waitSince := s1.dev.elapsed, phase := {} }

/-! ### Placement (R243 to R245) -/

/-- Cycles since a time, at 3.3 GHz (R10). -/
def State.cycles (s : State) (since : Nat) : Nat := (s.dev.elapsed - since) * 33 / 10

/-- The regions of a partition with no resident page, in virtual tile order. -/
def State.freeRegions (s : State) (part : Nat) : List Nat :=
  (s.part part).tiles.filter fun r => s.pages.all fun e => decide (e.2.region ≠ some r)

/-- Whether an instance runs: its pages wait for placement, its firings and subscriptions proceed (R234). -/
def Inst.runs (i : Inst) : Bool := decide (i.state = .running ∨ i.state = .cutting)

/-- The waiting pages of a partition (R241, R243). -/
def State.waitingPages (s : State) (part : Nat) : List Page :=
  (s.pages.map Prod.snd).filter fun (p : Page) => decide (p.part = part ∧ p.wanted ∧ p.region = none) && (s.pageThread p).isSome &&
    (match s.inst? part p.inst with | some i => i.runs | none => true)

/-- DataAvail(h): filled slots from Head up to the first marker slot (R236). -/
def State.dataAvail (s : State) (tile : Nat) (h : Handle) : Option Nat :=
  (s.avail? tile h).map fun n =>
    ((List.range n).takeWhile fun k => !(bit (s.readNat (h.slotPa tile (h.l.toNat + h.p + k) + h.slotB - 64) 4) 21)).length

/-- Reads lines of 64 bytes at a virtual address for an instance (R229, R245); `pay` is the island and the account that the
reads are charged to (R151, R260), where they are. -/
def State.readVirtual (s : State) (part level die : Nat) (pay : Option (Nat × Nat)) : Nat → Nat → State × Except (Nat × Nat) (List Byte)
  | 0, _ => (s, .ok [])
  | n + 1, va =>
    let s0 := match pay with | some (island, acct) => s.chargeLookup island acct die part va | none => s
    match s0.translate die part level false .read va 64 with
    | (s1, .error (.absent v)) => (s1, .error (0x22, v))
    | (s1, .error (.cause c v)) => (s1, .error (c, v))
    | (s1, .ok pa) =>
      let s2 := match pay with | some (island, acct) => s1.chargeFrom island acct die none pa 64 false | none => s1
      match s2.readVirtual part level die pay n (va + 64) with
      | (s3, .error e) => (s3, .error e)
      | (s3, .ok bs) => (s3, .ok (s1.readBytes pa 64 ++ bs))

/-- A page with its image: one that has never been placed is read where it lies in `.pages` (R237, R243, R245). -/
def State.withImage (s : State) (p : Page) : Page :=
  if p.image ≠ [] then p
  else match s.inst? p.part p.inst, s.pageThread p with
    | some i, some t =>
      (match s.readVirtual p.part i.level (dieOf t.tile) none 64 (i.pagesVa + 4096 * p.index) with
      | (_, .ok im) => { p with image := im }
      | (_, .error _) => p)
    | _, _ => p

/-- Tokens waiting at a page's input entries (R243 step 4). -/
def State.tokensWaiting (s : State) (p0 : Page) : Nat :=
  let p := s.withImage p0
  match s.pageThread p with
  | none => 0
  | some t => (List.range (pgPorts p.image)).foldl (fun n e =>
      if portDir p.image e = 0 then n + ((s.dataAvail t.tile (t.handle (portHandle p.image e))).getD 0) * portTps p.image e else n) 0

/-- What R243 orders pages by: aged, age, priority, energy of the account and its weight, tokens, wait,
and the name of the page instance. -/
def State.pageBefore (s : State) (x y : Page) : Bool :=
  let aged (p : Page) : Bool := decide (s.cycles p.waitSince ≥ 4194304)
  let prio (p : Page) : Nat := ((s.pageThread p).map Thread.prio).getD 0
  let num (p : Page) : Nat := ((s.pageThread p).map Thread.num).getD 0
  let en (p : Page) : Nat := ((s.account (s.pageAcct p)).last16).sum
  let wt (p : Page) : Nat := (s.account (s.pageAcct p)).weight.toNat
  let ix := en x * wt y
  let iy := en y * wt x
  let last : Bool := decide (x.inst < y.inst) || (decide (x.inst = y.inst) &&
    (decide (num x < num y) || (decide (num x = num y) && decide (x.index < y.index))))
  if aged x ∧ aged y then decide (x.waitSince < y.waitSince) || (decide (x.waitSince = y.waitSince) && last)
  else if aged x ∨ aged y then aged x
  else if prio x ≠ prio y then decide (prio x > prio y)
  else if ix ≠ iy then decide (ix < iy)
  else if s.tokensWaiting x ≠ s.tokensWaiting y then decide (s.tokensWaiting x > s.tokensWaiting y)
  else if x.waitSince ≠ y.waitSince then decide (x.waitSince < y.waitSince)
  else last

/-- The first of some things in an order. -/
def pick {α : Type} (before : α → α → Bool) : List α → Option α
  | [] => none
  | x :: r => match pick before r with
    | none => some x
    | some y => if before y x then some y else some x

/-- Whether a log record is the placement of a page, and the region that it names (R401). -/
def LogRec.places (r : LogRec) (p : Page) : Bool := decide (r.typ = 6 ∧ p.inst = r.inst ∧ p.ordinal = r.ordinal ∧ p.index = r.a % 65536)
def LogRec.region (r : LogRec) : Nat := r.a / 65536 % 256

/-- The waiting pages whose placement's turn has come: under a replay the one that the log names next, and those that the
rest of the log does not name (R403, log 120). -/
def State.candidates (s : State) (part : Nat) : List Page :=
  let log := (s.part part).replay
  (s.waitingPages part).filter fun p => log.head?.any (LogRec.places · p) || !(log.any (LogRec.places · p))

/-- The waiting page that the log places next, where the logged region is in the partition, and that region (R403). -/
def State.loggedPlacement (s : State) (part : Nat) : Option (Page × Nat) :=
  (s.part part).replay.head?.bind fun r =>
    if (s.part part).tiles.contains r.region then ((s.waitingPages part).find? fun p => r.places p).map fun p => (p, r.region) else none

/-- The page Dione places next, and its region (R243). Under replay the log names them (R403, log 120): where its region is
taken the placement waits. -/
def State.placement (s : State) (part : Nat) : Option (Page × Nat) :=
  let free := s.freeRegions part
  match s.loggedPlacement part with
  | some x => if free.contains x.2 then some x else none
  | none =>
    (pick s.pageBefore (s.candidates part)).bind fun (p : Page) =>
      let die := ((s.pageThread p).map fun (t : Thread) => dieOf t.tile).getD 0
      let back := p.lastRegion.filter fun r => free.contains r
      ((back.orElse fun _ => free.find? fun r => decide (dieOf r = die)).orElse fun _ => free.head?).map fun r => (p, r)

/-- A failed placement withdraws the page: an open firing is aborted, else a KIND 2 record is written (R245), which the trace
of the page's thread shows (R386). -/
def State.rejectPage (s : State) (p : Page) (cause value : Nat) : State :=
  let s1 := s.setPage { p with wanted := false }
  match s1.firingThread p with
  | some t => s1.abortWithRecord t cause 0 (word value) p.name []
  | none =>
    let s2 := match s1.pageThread p with
      | some t => s1.traceTrap t cause p.name.pc p.name.seq (word value)
      | none => s1
    (s2.addRecord p.part { cause, kind := 2, name := p.name, value := word value }).1

/-- The window sets that a page's global descriptors name, each loaded from `.kywin` (R145). -/
def State.loadWindows (s : State) (p : Page) (i : Inst) (die : Nat) (pay : Option (Nat × Nat)) (im : List Byte) : List Nat → State × Except (Nat × Nat) (Tab (List Byte))
  | [] => (s, .ok [])
  | d :: r =>
    match s.readVirtual p.part i.level die pay 2 (i.kywinVa + 128 * agWset im d) with
    | (s1, .error e) => (s1, .error e)
    | (s1, .ok bs) =>
      match s1.loadWindows p i die pay im r with
      | (s2, .error e) => (s2, .error e)
      | (s2, .ok ws) => (s2, .ok (tabSet ws (agWset im d) bs))

/-- Loads, checks, restores and binds a page on a region (R245); what it reads is charged to the instance's account (R260,
R335). The log's record of the placement is taken (R403). -/
def State.placeOn (s : State) (p : Page) (t : Thread) (i : Inst) (r : Nat) : State :=
  let va := i.pagesVa + 4096 * p.index
  let p := { p with va }
  let s := if (s.part p.part).replay.head?.any (LogRec.places · p) then s.popReplay p.part else s
  let pay := some (s.islandOf r, s.pageAcct p)
  match s.readVirtual p.part i.level (dieOf r) pay 64 va with
  | (s1, .error (c, v)) => s1.rejectPage p c v
  | (s1, .ok im) =>
    match pageBad? im i.kywinSize with
    | some off => s1.rejectPage p 0x44 (va + off)
    | none =>
      match bindBad? im t with
      | some (c, e) => s1.rejectPage p c (va + 0xB10 + 16 * e)
      | none =>
        let globals := if pgKind im = 1 then (List.range (pgAgcount im + 1)).filter fun d => decide (agSpace im d = 0) else []
        match s1.loadWindows p i (dieOf r) pay im globals with
        | (s2, .error (c, v)) => s2.rejectPage p c v
        | (s2, .ok ws) =>
          let st := if p.placements = 0 then { initialRegion im with aligning := p.st.aligning, cutNum := p.st.cutNum } else p.st
          let s3 := (s2.chargePage { p with region := some r } 0x22 (if p.placements = 0 then 64 else 64 + p.saveLines)).setPage { p with
            image := im, windows := ws, st, region := some r, lastRegion := some r, placed := true
            placements := p.placements + 1, residentSince := s2.dev.elapsed, phase := {} }
          s3.logEvent p.part { typ := 6, ordinal := p.ordinal, inst := p.inst, a := p.index + r * 65536, b := word s3.dev.time }

/-- PAGE_PLACE (R243, R245): acts when `region` is where Dione places the next page. -/
def execPagePlace (part region : Nat) (s : State) : Out :=
  match s.placement part with
  | none => .next s
  | some (p, r) =>
    if r ≠ region then .next s
    else
      match s.pageThread p, s.inst? part p.inst with
      | some t, some i => .next (s.placeOn p t i r)
      | _, _ => .next s

/-- The class of a resident page for removal on behalf of a waiting one (R244). -/
def State.evictClass (s : State) (w p : Page) : Option Nat :=
  let prio (q : Page) : Nat := ((s.pageThread q).map Thread.prio).getD 0
  let aged := decide (s.cycles w.waitSince ≥ 4194304)
  if !p.wanted then some 1
  else if (s.firingThread p).isNone then some 2
  else if (aged || decide (prio p < prio w)) && decide (s.cycles p.residentSince ≥ 65536) then some 3
  else none

/-- The page Dione removes for the first waiting page, when no region is free (R244). Under replay it makes room on the
region that the log names (R403). -/
def State.victim (s : State) (part : Nat) : Option Page :=
  match s.loggedPlacement part with
  | some (w, r) => ((s.pages.map Prod.snd).find? fun (p : Page) => decide (p.region = some r)).filter fun p => (s.evictClass w p).isSome
  | none => if s.freeRegions part ≠ [] then none
  else
    (pick s.pageBefore (s.candidates part)).bind fun w =>
      let resident := (s.pages.map Prod.snd).filter fun (p : Page) => decide (p.part = part) && p.region.isSome
      let cls (k : Nat) : Option Page := pick (fun x y => decide (x.lastFire < y.lastFire)) (resident.filter fun p => decide (s.evictClass w p = some k))
      ((cls 1).orElse fun _ => cls 2).orElse fun _ => cls 3

/-- PAGE_EVICT (R244, R245). -/
def execPageEvict (part : Nat) (s : State) : Out :=
  match s.victim part with
  | none => .next s
  | some p => .next (s.evict p.id)

end Sys2Proof.Machine
end

