-- ==== Sys2Proof/Machine/Skink.lean ====
section
/-! DEFINITION. Skink, the sum-product engine (R286 to R309). -/

namespace Sys2Proof.Machine

/-! ### Configuration, banks and shapes -/

/-- Fields of a captured SK_TCFG (R287). -/
def skBank (cfg : Word) (b : Nat) : Bool := bit (wbits cfg 0 16) b
def skTree (cfg : Word) (t : Nat) : Bool := bit (wbits cfg 16 4) t
def skShape (cfg : Word) (y : Nat) : Bool := decide (wbits cfg 20 6 ≤ y ∧ y < wbits cfg 20 6 + wbits cfg 26 7)
def skFmt (cfg : Word) : Nat := match wbits cfg 33 2 with | 0 => 16 | 1 => 1 | _ => 2
def skRnd (cfg : Word) : Nat := wbits cfg 35 3

/-- The flag group of transfers and renormalisations: the lowest allocated tree (R288). -/
def skGroup (cfg : Word) : Nat := ((List.range 4).find? (skTree cfg)).getD 0

/-- σ_b (R294). -/
def Tile.sigma (tl : Tile) (cfg : Word) (b : Nat) : Int := if skFmt cfg = 16 then tl.scales.toArray.getD b 0 else 0

/-- A word of a bank; addresses are taken modulo 256 (R293). -/
def Tile.bankWord (tl : Tile) (b w : Nat) : Half := sparseGet 0 tl.banks (256 * b + w % 256)
def Tile.setBankWord (tl : Tile) (b w : Nat) (v : Nat) : Tile :=
  { tl with banks := sparseSet 0 tl.banks (256 * b + w % 256) (BitVec.ofNat 32 v) }

/-- Val(b, w) (R294). -/
def Tile.val (tl : Tile) (cfg : Word) (b w : Nat) : Ex :=
  (decodeFmt (skFmt cfg) ((tl.bankWord b w).toNat % 2 ^ fmtBits (skFmt cfg))).scale (tl.sigma cfg b)

/-- Rounds into the pass format at a bank's scale: the code and the flags (R294, R81). -/
def Tile.rndCode (tl : Tile) (cfg : Word) (b : Nat) (x : Ex) : Nat × Flags :=
  roundFmt (skFmt cfg) (tl.sigma cfg b) x (skRnd cfg)

/-- Rnd at a bank as a value (R294). -/
def Tile.rnd (tl : Tile) (cfg : Word) (b : Nat) (x : Ex × Flags) : Ex × Flags :=
  let r := tl.rndCode cfg b x.1
  ((decodeFmt (skFmt cfg) r.1).scale (tl.sigma cfg b), x.2.or r.2)

/-- Put(b, w, x) (R294). -/
def Tile.put (tl : Tile) (cfg : Word) (b w : Nat) (x : Ex) : Tile × Flags :=
  let r := tl.rndCode cfg b x
  (tl.setBankWord b w r.1, r.2)

/-- The flags of a tree's group with new ones set (R288); FM is never set. -/
def Tile.stickSk (tl : Tile) (g : Nat) (f : Flags) : Tile :=
  { tl with skFlags := tl.skFlags.setIfInBounds g (stick (tl.skFlags.toArray.getD g 0) { f with fm := false }) }

/-- The operation of a node (R291). -/
def nodeOp (ops : Word) (n : Nat) : Nat := wbits ops (2 * n - 2) 2

/-- The used positions below a node, itself included (R292 item 2). -/
def usedFrom (ops : Word) : Nat → Nat → List Nat
  | 0, n => [n]
  | f + 1, n =>
    if n ≥ 16 then [n]
    else match nodeOp ops n with
      | 0 => [n]
      | 3 => n :: usedFrom ops f (2 * n)
      | _ => n :: (usedFrom ops f (2 * n) ++ usedFrom ops f (2 * n + 1))

def Shape.root (y : Shape) : Nat := bits y.ctl 0 4
def Shape.obank (y : Shape) : Nat := bits y.ctl 4 4
def Shape.sbank (y : Shape) : Nat := bits y.ctl 8 4
def Shape.used (y : Shape) : List Nat := usedFrom y.ops 4 y.root

/-- Used internal nodes in ascending heap order, and used leaves by leaf number (R292). -/
def Shape.nodes (y : Shape) : List Nat := (List.range 16).filter fun n => y.used.contains n
def Shape.leaves (y : Shape) : List Nat := (List.range 16).filter fun i => y.used.contains (16 + i)

/-- The bank of a leaf, its lane, and the rank of a node (R291, R292). -/
def Shape.leafBank (y : Shape) (i : Nat) : Nat := wbits y.leafs (4 * i) 4
def Shape.lane (y : Shape) (i : Nat) : Nat := (y.leaves.filter fun j => decide (j < i ∧ y.leafBank j = y.leafBank i)).length
def Shape.rank (y : Shape) (n : Nat) : Nat := (y.nodes.filter fun m => decide (m < n)).length

/-- The validity of a shape (R292). -/
def Shape.valid (y : Shape) : Bool :=
  decide (y.root ≠ 0) && decide (nodeOp y.ops y.root ≠ 0) &&
  (List.range 16).all (fun n => decide (n = 0) || (y.nodes.contains n == decide (nodeOp y.ops n ≠ 0))) &&
  (List.range 16).all (fun i => y.leaves.contains i || decide (y.leafBank i = 0)) &&
  decide (wbits y.ops 30 34 = 0)

/-! ### `sp.cfg` (R301) -/

/-- Whether two allocations share a bank, a tree or a shape register. -/
def skMeets (a b : Word) : Bool :=
  (List.range 16).any (fun k => skBank a k && skBank b k) || (List.range 4).any (fun k => skTree a k && skTree b k) ||
    (List.range 64).any fun k => skShape a k && skShape b k

/-- The configurations that a thread holds or has a `sp.cfg` in flight for. -/
def State.skConfigs (s : State) (t : Thread) : List Word :=
  t.skTcfg :: (s.tile t.tile).skQ.filterMap fun c =>
    match c.op with
    | .sumCfg w => if c.name.thread = t.num then some w else none
    | _ => none

/-- SK_TCFG takes new values: what the allocation adds is cleared (R301). -/
def State.setSumCfg (s : State) (t : Thread) (new : Word) : State × Thread :=
  let old := t.skTcfg
  let tl := s.tile t.tile
  let added (b : Nat) : Bool := skBank new b && !(skBank old b)
  let tl1 := { tl with
    banks := tl.banks.filter fun e => !(added (e.1 / 256))
    scales := Vector.ofFn fun b => if added b.val then 0 else tl.scales.toArray.getD b.val 0
    shapes := tl.shapes.filter fun e => !(skShape new e.1 && !(skShape old e.1)) }
  (s.setTile t.tile tl1, { t with skTcfg := new })

/-- `sp.cfg` (R301): it takes effect at once where no earlier Skink command of the thread is
outstanding, otherwise in its turn. -/
def execSpCfg (a : BitVec 5) (x : Half) (s : State) : Out :=
  issue (.spCfg a x) 0 s fun s t =>
    let i := Instr.spCfg a x
    let v := t.reg a.toNat
    let new := word (wbits v 0 33 + xbits x 0 2 * 2 ^ 33 + xbits x 2 3 * 2 ^ 35)
    let others := (s.threads.filter fun e => decide (e.2.tile = t.tile ∧ e.1 ≠ t.num)).map Prod.snd
    if wbits v 33 31 ≠ 0 ∨ wbits v 20 6 + wbits v 26 7 > 64 then s.raiseFree t i 0x06
    else if wbits v 0 16 ≠ 0 ∧ wbits v 16 4 = 0 then s.raiseFree t i 0x06
    else if others.any fun o => (s.skConfigs o).any (skMeets new) then s.raiseFree t i 0x05
    else if (s.tile t.tile).skQ.any (fun c => decide (c.name.thread = t.num)) || !(s.fenceOk t.num t.fence) then
      enqueue .sk i s t (.sumCfg new) [] []
    else
      let (s1, t1) := s.setSumCfg t new
      completeNow i s1 t1

/-! ### Issue of the commands (R300 to R306) -/

/-- `sp.shape` (R302). -/
def execSpShape (a b : BitVec 5) (y : BitVec 6) (x : Half) (s : State) : Out :=
  issue (.spShape a b y x) 0 s fun s t =>
    let i := Instr.spShape a b y x
    let sh : Shape := { ops := t.reg a.toNat, leafs := t.reg b.toNat, ctl := x.toNat }
    if wbits sh.ops 30 34 ≠ 0 then s.raiseFree t i 0x06
    else if !(skShape t.skTcfg y.toNat) then s.raiseFree t i 0x21
    else if !sh.valid then s.raiseFree t i 0x06
    else enqueue .sk i s t (.shape y.toNat sh.ops sh.leafs sh.ctl) [] []

/-- The issue of a pass (R293, R300). -/
def passIssue (i : Instr) (a b : BitVec 5) (y : BitVec 6) (op : Word → Word → CmdOp) (s : State) : Out :=
  issue i 0 s fun s t =>
    let va := t.reg a.toNat
    let vb := t.reg b.toNat
    if wbits va 40 24 ≠ 0 ∨ wbits vb 14 50 ≠ 0 then s.raiseFree t i 0x06
    else if !(skTree t.skTcfg (wbits vb 0 2)) || !(skShape t.skTcfg y.toNat) then s.raiseFree t i 0x21
    else if wbits vb 2 12 = 0 then noopCommand .sk i none s t
    else enqueue .sk i s t (op va vb) [] []

def execSpUp (a b : BitVec 5) (y : BitVec 6) (s : State) : Out :=
  passIssue (.spUp a b y) a b y (fun u v => .up u v y.toNat false) s
def execSpUpNosave (a b : BitVec 5) (y : BitVec 6) (x : Half) (s : State) : Out :=
  passIssue (.spUpNosave a b y x) a b y (fun u v => .up u v y.toNat (bit x.toNat 0)) s
def execSpDown (a b : BitVec 5) (y : BitVec 6) (s : State) : Out :=
  passIssue (.spDown a b y) a b y (fun u v => .down u v y.toNat false) s
def execSpDownAcc (a b : BitVec 5) (y : BitVec 6) (x : Half) (s : State) : Out :=
  passIssue (.spDownAcc a b y x) a b y (fun u v => .down u v y.toNat (bit x.toNat 0)) s

/-- WA and C of a transfer (R303), and their reserved bits. -/
def xferWa (v : Word) : Nat := wbits v 0 8
def xferCnt (v : Word) : Nat := wbits v 8 9
def xferOk (v : Word) : Bool := decide (wbits v 17 47 = 0 ∧ xferCnt v ≤ 256)

/-- Blocks of a stored transfer (R304). -/
def storeBlocks (fmt cnt : Nat) : Nat := if fmtPerBlock fmt = 0 then 0 else (cnt + fmtPerBlock fmt - 1) / fmtPerBlock fmt

/-- The formats that Skink moves (R303, R304). -/
def skinkFormat (f : Nat) : Bool := [1, 2, 16].contains f

/-- `sp.ld` from the A-store (R303). -/
def execSpLdAstore (a b : BitVec 5) (k : BitVec 4) (s : State) : Out :=
  issue (.spLdAstore a b k) 0 s fun s t =>
    let i := Instr.spLdAstore a b k
    let va := t.reg a.toNat
    let vb := t.reg b.toNat
    if !(xferOk vb) || decide (wbits va 20 44 ≠ 0 ∨ wbits va 0 6 ≠ 0) then s.raiseFree t i 0x06
    else if !(skBank t.skTcfg k.toNat) then s.raiseFree t i 0x21
    else if xferWa vb + xferCnt vb > 256 then s.raiseFree t i 0x06
    else if xferCnt vb = 0 then noopCommand .sk i none s t
    else enqueue .sk i s t (.skLoad none none va.toNat k.toNat (xferWa vb) (xferCnt vb)) [] []

/-- `sp.ld` from a ring slot, at its issue and at each wake (R303). -/
def spLdRingCore (h : BitVec 4) (b : BitVec 5) (k : BitVec 4) (s : State) (t : Thread) : State :=
  let i := Instr.spLdRing h b k
  let vb := t.reg b.toNat
  let hd := t.handle h.toNat
  if !(xferOk vb) then s.raiseFree t i 0x06
  else if !(skBank t.skTcfg k.toNat) then s.raiseFree t i 0x21
  else if !hd.bound || decide (hd.role ≠ 0) then s.raiseFree t i 0x04
  else if xferWa vb + xferCnt vb > 256 then s.raiseFree t i 0x06
  else if xferCnt vb = 0 then noopCommand .sk i (some h.toNat) s t
  else
    withSlots i s t h.toNat 1 fun s t' =>
      enqueue .sk i s t' (.skLoad (some h.toNat) none 0 k.toNat (xferWa vb) (xferCnt vb)) [(h.toNat, 1)] [hd.l.toNat + hd.p]

def execSpLdRing (h : BitVec 4) (b : BitVec 5) (k : BitVec 4) (s : State) : Out :=
  issue (.spLdRing h b k) 0 s (spLdRingCore h b k)

/-- `sp.ld` through a shape record (R303): its blocks follow their descriptors, so its FMT must be RAW. -/
def execSpLdRecord (a b : BitVec 5) (k : BitVec 4) (s : State) : Out :=
  issue (.spLdRecord a b k) 0 s fun s t =>
    let i := Instr.spLdRecord a b k
    let vb := t.reg b.toNat
    if !(xferOk vb) then s.raiseFree t i 0x06
    else if !(skBank t.skTcfg k.toNat) then s.raiseFree t i 0x21
    else if xferWa vb + xferCnt vb > 256 then s.raiseFree t i 0x06
    else
      withRecord i s t (t.reg a.toNat) 64 fun s bs =>
        let r := tensorOf bs 0
        match r.check false false with
        | some c => s.recordFault t i c (t.reg a.toNat)
        | none =>
          if r.space ≥ 2 then s.raiseFree t i 0x21
          else if r.fmt ≠ 0 then s.raise t i 0x07 (t.reg a.toNat)
          else if xferCnt vb = 0 || r.none_ then noopCommand .sk i none s t
          else enqueue .sk i s t (.skLoad none (some bs) 0 k.toNat (xferWa vb) (xferCnt vb)) [] []

/-- `sp.st` to the A-store (R304). -/
def spStStore (i : Instr) (a b : BitVec 5) (k : BitVec 4) (fmt? : Option Nat) (scale : Int) (mode : Nat) (s : State) (t : Thread) : State :=
  let va := t.reg a.toNat
  let vb := t.reg b.toNat
  let fmt := fmt?.getD (skFmt t.skTcfg)
  if !(xferOk vb) || decide (wbits va 20 44 ≠ 0 ∨ wbits va 0 6 ≠ 0) then s.raiseFree t i 0x06
  else if !(skBank t.skTcfg k.toNat) then s.raiseFree t i 0x21
  else if xferWa vb + xferCnt vb > 256 then s.raiseFree t i 0x06
  else if !(skinkFormat fmt) then s.raiseFree t i 0x07
  else if xferCnt vb = 0 then noopCommand .sk i none s t
  else enqueue .sk i s t (.skStore none none va.toNat k.toNat (xferWa vb) (xferCnt vb) fmt scale mode) [] []

/-- `sp.st` to a ring slot, at its issue and at each wake (R304). -/
def spStRingCore (i : Instr) (h : BitVec 4) (b : BitVec 5) (k : BitVec 4) (fmt? : Option Nat) (scale : Int) (mode : Nat)
    (s : State) (t : Thread) : State :=
  let vb := t.reg b.toNat
  let hd := t.handle h.toNat
  let fmt := fmt?.getD (skFmt t.skTcfg)
  if !(xferOk vb) then s.raiseFree t i 0x06
  else if !(skBank t.skTcfg k.toNat) then s.raiseFree t i 0x21
  else if !hd.bound || decide (hd.role ≠ 1 ∨ hd.nrep ≠ 0) then s.raiseFree t i 0x04
  else if xferWa vb + xferCnt vb > 256 then s.raiseFree t i 0x06
  else if !(skinkFormat fmt) then s.raiseFree t i 0x07
  else if hd.slot64 < storeBlocks fmt (xferCnt vb) + 1 then s.raiseFree t i 0x06
  else if xferCnt vb = 0 then noopCommand .sk i (some h.toNat) s t
  else
    withSlots i s t h.toNat 1 fun s t' =>
      enqueue .sk i s t' (.skStore (some h.toNat) none 0 k.toNat (xferWa vb) (xferCnt vb) fmt scale mode)
        [(h.toNat, 1)] [hd.l.toNat + hd.p]

def execSpStAstore (a b : BitVec 5) (k : BitVec 4) (s : State) : Out :=
  issue (.spStAstore a b k) 0 s (spStStore (.spStAstore a b k) a b k none 0 0)
def execSpStRing (h : BitVec 4) (b : BitVec 5) (k : BitVec 4) (s : State) : Out :=
  issue (.spStRing h b k) 0 s (spStRingCore (.spStRing h b k) h b k none 0 0)

/-- The extended form without a record, at its issue and at each wake (R304): `r` selects the ring. -/
def spStExtCore (r : BitVec 1) (h : BitVec 4) (a b : BitVec 5) (k : BitVec 4) (x : Half) (s : State) (t : Thread) : State :=
  let i := Instr.spStExt r h a b k x
  if r = 1 then spStRingCore i h b k (some (outFmt x)) (outScale x) (outMode x) s t
  else spStStore i a b k (some (outFmt x)) (outScale x) (outMode x) s t

def execSpStExt (r : BitVec 1) (h : BitVec 4) (a b : BitVec 5) (k : BitVec 4) (x : Half) (s : State) : Out :=
  issue (.spStExt r h a b k x) 0 s (spStExtCore r h a b k x)

/-- `sp.st` through a shape record (R304). -/
def execSpStRecord (a b : BitVec 5) (k : BitVec 4) (x : Half) (s : State) : Out :=
  issue (.spStRecord a b k x) 0 s fun s t =>
    let i := Instr.spStRecord a b k x
    let vb := t.reg b.toNat
    let fmt := outFmt x
    if !(xferOk vb) then s.raiseFree t i 0x06
    else if !(skBank t.skTcfg k.toNat) then s.raiseFree t i 0x21
    else if xferWa vb + xferCnt vb > 256 then s.raiseFree t i 0x06
    else if !(skinkFormat fmt) then s.raiseFree t i 0x07
    else
      withRecord i s t (t.reg a.toNat) 64 fun s bs =>
        let r := tensorOf bs 0
        match r.check true false with
        | some c => s.recordFault t i c (t.reg a.toNat)
        | none =>
          if r.space ≥ 2 then s.raiseFree t i 0x21
          else if r.fmt ≠ fmt then s.raise t i 0x07 (t.reg a.toNat)
          else if xferCnt vb = 0 || r.none_ then noopCommand .sk i none s t
          else if (r.block? (storeBlocks fmt (xferCnt vb) - 1)).isNone then s.raiseFree t i 0x06
          else enqueue .sk i s t (.skStore none (some bs) 0 k.toNat (xferWa vb) (xferCnt vb) fmt
            (outScale x) (outMode x)) [] []

/-- The issue of a renormalisation (R305). -/
def normIssue (i : Instr) (k : BitVec 4) (set? : Thread → Option Word) (s : State) : Out :=
  issue i 0 s fun s t =>
    if (set? t).any fun v => decide (v.toInt < -(2 : Int) ^ 31 ∨ v.toInt ≥ 2 ^ 31) then s.raiseFree t i 0x06
    else if !(skBank t.skTcfg k.toNat) then s.raiseFree t i 0x21
    else if skFmt t.skTcfg ≠ 16 then s.raiseFree t i 0x04
    else enqueue .sk i s t (.norm k.toNat ((set? t).map BitVec.toInt)) [] []

def execSpNorm (k : BitVec 4) (s : State) : Out := normIssue (.spNorm k) k (fun _ => none) s
def execSpNormSet (b : BitVec 5) (k : BitVec 4) (s : State) : Out :=
  normIssue (.spNormSet b k) k (fun t => some (t.reg b.toNat)) s

/-- `sp.wait` (R306). -/
def execSpWait (s : State) : Out := issue .spWait 0 s (engineWaitCore .sk .spWait)

/-! ### Passes (R293 to R297) -/

/-- A pass: its shape, the word bases of s[a], and the captured configuration. -/
structure Pass where
  cfg : Word
  sh : Shape
  va : Word
  deriving DecidableEq, Repr

/-- Where the words of a step lie (R293). -/
def Pass.leafWord (p : Pass) (st i : Nat) : Nat := wbits p.va 0 8 + st * wbits p.va 8 8 + p.sh.lane i
def Pass.outWord (p : Pass) (st : Nat) : Nat := wbits p.va 16 8 + st
def Pass.savedWord (p : Pass) (st n : Nat) : Nat := wbits p.va 24 8 + st * p.sh.nodes.length + p.sh.rank n
def Pass.adjWord (p : Pass) (st i : Nat) : Nat := wbits p.va 32 8 + st * wbits p.va 8 8 + p.sh.lane i

/-- The value of a position in the working values of a step. -/
def held (v : List (Nat × Ex)) (n : Nat) : Ex := (tabGet? v n).getD (.fin false 0 0)

/-- NodeOp (R294). -/
def Pass.nodeOp (p : Pass) (tl : Tile) (op : Nat) (l r : Ex) : Ex × Flags :=
  tl.rnd p.cfg p.sh.obank (match op with
    | 1 => exAdd l r (skRnd p.cfg)
    | 2 => exMul l r
    | _ => (l, {}))

/-- One step of `sp.up` (R295). -/
def Pass.up (p : Pass) (nosave : Bool) (acc : Tile × Flags) (st : Nat) : Tile × Flags :=
  let tl := acc.1
  let leaves := p.sh.leaves.map fun i => (16 + i, tl.val p.cfg (p.sh.leafBank i) (p.leafWord st i))
  let r := p.sh.nodes.reverse.foldl (fun (a : List (Nat × Ex) × Flags) n =>
    let x := p.nodeOp tl (Machine.nodeOp p.sh.ops n) (held a.1 (2 * n)) (held a.1 (2 * n + 1))
    ((n, x.1) :: a.1, a.2.or x.2)) (leaves, acc.2)
  let o := tl.put p.cfg p.sh.obank (p.outWord st) (held r.1 p.sh.root)
  if nosave then (o.1, r.2.or o.2)
  else p.sh.nodes.foldl (fun (a : Tile × Flags) n =>
    let w := a.1.put p.cfg p.sh.sbank (p.savedWord st n) (held r.1 n)
    (w.1, a.2.or w.2)) (o.1, r.2.or o.2)

/-- One step of `sp.down` (R296). -/
def Pass.down (p : Pass) (accum : Bool) (acc : Tile × Flags) (st : Nat) : Tile × Flags :=
  let tl := acc.1
  let child (m : Nat) : Ex :=
    if m ≥ 16 then tl.val p.cfg (p.sh.leafBank (m - 16)) (p.leafWord st (m - 16))
    else tl.val p.cfg p.sh.sbank (p.savedWord st m)
  let rnd (x : Ex × Flags) : Ex × Flags := tl.rnd p.cfg p.sh.obank x
  let r := p.sh.nodes.foldl (fun (a : List (Nat × Ex) × Flags) n =>
    let g := held a.1 n
    match Machine.nodeOp p.sh.ops n with
    | 1 => let x := rnd (g, {}); ((2 * n, x.1) :: (2 * n + 1, x.1) :: a.1, a.2.or x.2)
    | 2 =>
      let x := rnd (exMul g (child (2 * n + 1)))
      let y := rnd (exMul g (child (2 * n)))
      ((2 * n, x.1) :: (2 * n + 1, y.1) :: a.1, (a.2.or x.2).or y.2)
    | _ => let x := rnd (g, {}); ((2 * n, x.1) :: a.1, a.2.or x.2))
    ([(p.sh.root, tl.val p.cfg p.sh.obank (p.outWord st))], acc.2)
  p.sh.leaves.foldl (fun (a : Tile × Flags) i =>
    let b := p.sh.leafBank i
    let w := p.adjWord st i
    let g := held r.1 (16 + i)
    if accum then
      let x := exAdd (a.1.val p.cfg b w) g (skRnd p.cfg)
      let c := a.1.rndCode p.cfg b x.1
      (a.1.setBankWord b w c.1, (a.2.or x.2).or c.2)
    else
      let c := a.1.put p.cfg b w g
      (c.1, a.2.or c.2)) (tl, r.2)

/-- Bank words that a step reads and writes (R309, R439). -/
def Pass.words (p : Pass) (down flag : Bool) : Nat :=
  if down then
    1 + 2 * (p.sh.nodes.filter fun n => decide (Machine.nodeOp p.sh.ops n = 2)).length +
      (if flag then 2 else 1) * p.sh.leaves.length
  else p.sh.leaves.length + 1 + (if flag then 0 else p.sh.nodes.length)

/-- Performs a pass: an empty shape is BADSTATUS, a bank outside the captured allocation PROT (R307). -/
def performPass (s : State) (c : Cmd) (va vb : Word) (y : Nat) (down flag : Bool) : State :=
  let tile := c.name.thread / 4
  let tl := s.tile tile
  let sh := tabGet {} tl.shapes y
  let p : Pass := { cfg := c.cfg, sh, va }
  let banks := sh.obank :: sh.sbank :: sh.leaves.map sh.leafBank
  if sh.root = 0 then s.commandFaultFree .sk c 0x04
  else if banks.any fun b => !(skBank c.cfg b) then s.commandFaultFree .sk c 0x21
  else
    let n := wbits vb 2 12
    let r := (List.range n).foldl (fun a st => if down then p.down flag a st else p.up flag a st) (tl, {})
    let s1 := s.setTile tile (r.1.stickSk (wbits vb 0 2) r.2)
    ((s1.chargeCmd c 0x30 (n * sh.nodes.length)).chargeCmd c 0x31 (n * p.words down flag)).completed c

/-! ### Transfers (R303, R304) -/

/-- Where a block of a transfer lies: a physical address, or an address of a space. -/
inductive Place where
  | phys (pa : Nat)
  | in_ (space addr : Nat)
  deriving DecidableEq, Repr

/-- Block `k` of a transfer's source or target; none past its end. -/
def xferPlace (hd : Option (Handle × Nat)) (recd : Option (List Byte)) (tile base k : Nat) : Option Place :=
  match hd, recd with
  | some (h, v), _ => if 64 * (k + 1) ≤ h.slotB - 64 then some (.phys (h.slotPa tile v + 64 * k)) else none
  | none, some bs =>
    let r := tensorOf bs 0
    (r.block? k).map fun a => .in_ r.space a
  | none, none => if base + 64 * (k + 1) ≤ 0x100000 then some (.in_ 1 (base + 64 * k)) else none

/-- A block and its descriptor; one that is not aligned is RAW (R60, R63). -/
def State.readBlock (s : State) (g : Agent) : Place → State × Except EngFault (List Byte × BitVec 16)
  | .phys pa =>
    if s.bad pa 64 then (s.memUe pa 0, .error { cause := 0x90, value := pa - apertureBase (tileOf pa) })
    else (s.chargeEngine g pa 64, .ok (s.readBytes pa 64, s.descAt pa))
  | .in_ space a =>
    let runs := if a % 64 = 0 then [(a, 64)] else [(a, 64 - a % 64), (a + (64 - a % 64), a % 64)]
    match s.readRuns g space 0 runs with
    | (s1, .error e) => (s1, .error e)
    | (s1, .ok (bs, [(d, true)])) => (s1, .ok (bs, d))
    | (s1, .ok (bs, _)) => (s1, .ok (bs, 0))
where
  /-- The tile whose aperture an address lies in. -/
  tileOf (pa : Nat) : Nat := (pa - 0x8000000000000) / 0x200000

/-- The value that names a block in a fault: its address in the space, or the A-store offset of a slot. -/
def placeAddr : Place → Nat
  | .phys pa => (pa - 0x8000000000000) % 0x200000
  | .in_ _ a => a

/-- Elements of consecutive blocks until `need` are supplied (R303): the elements, the blocks used and
the fault that ended it. -/
def loadElems (g : Agent) (default : Nat) (place : Nat → Option Place) : Nat → Nat → Nat → State →
    State × List Ex × Nat × Option (Option EngFault)
  | 0, k, _, s => (s, [], k, none)
  | f + 1, k, need, s =>
    if need = 0 then (s, [], k, none)
    else
      match place k with
      | none => (s, [], k, some none)
      | some pl =>
        match s.readBlock g pl with
        | (s1, .error e) => (s1, [], k, some (some e))
        | (s1, .ok (bs, d)) =>
          match followFmt skinkFormat default d with
          | none => (s1, [], k, some (some { cause := 0x07, value := placeAddr pl }))
          | some (fmt, scale) =>
            let xs := ((blockCodes fmt bs).map fun c => (decodeFmt fmt c).scale scale).take need
            match loadElems g default place f (k + 1) (need - xs.length) s1 with
            | (s2, ys, n, e) => (s2, xs ++ ys, n, e)

/-- Writes elements into a bank, each rounded once at the bank's scale (R303, R77). -/
def Tile.loadBank (tl : Tile) (cfg : Word) (b wa : Nat) (xs : List Ex) : Tile × Flags :=
  (List.range xs.length).foldl (fun (a : Tile × Flags) k =>
    let r := a.1.rndCode cfg b (xs.getD k (.fin false 0 0))
    (a.1.setBankWord b (wa + k) r.1, a.2.or r.2)) (tl, {})

/-- Performs an `sp.ld` (R303, R307). -/
def performSkLoad (s : State) (c : Cmd) (h : Option Nat) (recd : Option (List Byte)) (base b wa cnt : Nat) : State :=
  let tile := c.name.thread / 4
  let slot := (h.bind fun n => (s.thread? c.name.thread).map fun t => (t.handle n, c.space0.getD 0 0))
  let trailer := match slot with | some (hd, v) => leNat (s.readBytes (hd.slotPa tile v + hd.slotB - 64) 4) | none => 0
  let slotVal := match slot with | some (hd, v) => hd.base + v % hd.depth * hd.slotB | none => 0
  let line := match slot with | some (hd, v) => hd.slotPa tile v + hd.slotB - 64 | none => 0
  if slot.isSome && s.bad line 64 then s.storeFault .sk c 1 0x90 line
  else if bit trailer 21 then s.commandFault .sk c 0x07 (word slotVal)
  else
    let got := if bit trailer 20 then (s, List.replicate cnt (Ex.fin false 0 0), 0, none)
      else loadElems c.agent (skFmt c.cfg) (xferPlace slot recd tile base) (cnt + 1) 0 cnt s
    let mismatch := slot.isSome && !(bit trailer 20) && got.2.2.2.isNone && decide (bits trailer 0 13 ≠ 16 * got.2.2.1)
    let xs := if mismatch then [] else got.2.1
    let r := (got.1.tile tile).loadBank c.cfg b wa xs
    let s1 := got.1.setTile tile (r.1.stickSk (skGroup c.cfg) r.2)
    let s2 := ((s1.chargeCmd c 0x31 xs.length).chargeCmd c 0x32 got.2.2.1).chargeCmd c 0x03 (if slot.isSome then 1 else 0)
    if mismatch then s2.commandFault .sk c 0x07 (word slotVal)
    else
      match got.2.2.2 with
      | none => s2.completed c
      | some none => s2.commandFaultFree .sk c 0x06
      | some (some e) => s2.commandFault .sk c e.cause (word e.value) e.access

/-- A block of an `sp.st` is written: its publication, the flags of its elements and its charges (R304, R309). -/
def State.storeBlock (s : State) (c : Cmd) (xs : List (Nat × Flags)) (pa : Nat) (bs : List Byte) (d : BitVec 16) : State :=
  let tile := c.name.thread / 4
  let s1 := s.publish (cellsAt pa bs) [(pa / 64, d)]
  let s2 := s1.setTile tile ((s1.tile tile).stickSk (skGroup c.cfg) (xs.foldl (fun f r => f.or r.2) {}))
  (s2.chargeCmd c 0x31 xs.length).chargeCmd c 0x32 1

/-- Writes blocks `k` on as publications, each with its descriptor (R304, R62); a fault stops it after the
last whole block (R307). A block past the end of the A-store is PROT at its address (R127, R354). -/
def storeElems (c : Cmd) (fmt : Nat) (scale : Int) (base : Nat) (place : Nat → Option Place) :
    List (List (Nat × Flags)) → Nat → State → State × Option EngFault
  | [], _, s => (s, none)
  | xs :: rest, k, s =>
    let bs := packBlock fmt (xs.map Prod.fst)
    let d := descOf fmt scale
    match place k with
    | none => (s, some { access := 1, cause := 0x21, value := base + 64 * k })
    | some (.phys pa) => storeElems c fmt scale base place rest (k + 1) ((s.chargeEngine c.agent pa 64).storeBlock c xs pa bs d)
    | some (.in_ space a) =>
      match s.engineAddr c.agent space .write a 64 with
      | (s1, .error m) => (s1, some (m.fault .write))
      | (s1, .ok pa) =>
        if !(s1.keepsDesc c.agent.die c.name.part space a pa) then (s1, some { access := 1, cause := 0x07, value := a })
        else storeElems c fmt scale base place rest (k + 1) (s1.storeBlock c xs pa bs d)

/-- A list cut into parts of `n`. -/
def parts {α : Type} (n : Nat) : Nat → List α → List (List α)
  | 0, _ => []
  | k + 1, xs => xs.take n :: parts n k (xs.drop n)

/-- Performs an `sp.st` (R304, R307). -/
def performSkStore (s : State) (c : Cmd) (h : Option Nat) (recd : Option (List Byte)) (base b wa cnt fmt : Nat) (scale : Int) (mode : Nat) : State :=
  let tile := c.name.thread / 4
  let tl := s.tile tile
  let slot := (h.bind fun n => (s.thread? c.name.thread).map fun t => (t.handle n, c.space0.getD 0 0))
  let rs := (List.range cnt).map fun k =>
    let x := tl.val c.cfg b (wa + k)
    if fmt = 16 then roundSp x scale mode else roundFmt fmt 0 (x.scale (-scale)) mode
  let nb := storeBlocks fmt cnt
  match storeElems c fmt scale base (xferPlace slot recd tile base) (parts (fmtPerBlock fmt) nb rs) 0 s with
  | (s2, some e) => s2.commandFault .sk c e.cause (word e.value) e.access
  | (s2, none) =>
    match slot with
    | none => s2.completed c
    | some (hd, v) =>
      ((s2.chargeEngine c.agent (hd.slotPa tile v + hd.slotB - 64) 64).publish (cellsAt (hd.slotPa tile v + hd.slotB - 64) (leBytes 4 (trailerWord (16 * nb) 1 0 false false) ++ zeros 60))).completed c

/-! ### Renormalisation (R305) -/

/-- The exponent field of the words of a bank whose fraction is not zero. -/
def Tile.exponents (tl : Tile) (b : Nat) : List Nat :=
  (List.range 256).filterMap fun w =>
    let v := (tl.bankWord b w).toNat
    if v % 2 ^ 24 = 0 then none else some (v / 2 ^ 24)

/-- Performs an `sp.norm` (R305). -/
def performNorm (s : State) (c : Cmd) (b : Nat) (setTo : Option Int) : State :=
  let tile := c.name.thread / 4
  let tl := s.tile tile
  let old := tl.scales.toArray.getD b 0
  let es := tl.exponents b
  let reads := if setTo.isSome then 0 else 256
  let goal : Option Int := match setTo, es with
    | some v, _ => some v
    | none, [] => none
    | none, e :: r => some (old + 32 - (r.foldl min e : Nat))
  match goal with
  | none => (s.chargeCmd c 0x31 reads).completed c
  | some sc =>
    if sc < -(2 : Int) ^ 31 ∨ sc ≥ 2 ^ 31 then
      ((s.setTile tile (tl.stickSk (skGroup c.cfg) { of := true })).chargeCmd c 0x31 reads).completed c
    else
      let r := (List.range 256).foldl (fun (a : Tile × Flags) w =>
        let v := roundSp ((decodeFmt 16 (tl.bankWord b w).toNat).scale old) sc (skRnd c.cfg)
        (a.1.setBankWord b w v.1, a.2.or v.2)) (tl, {})
      let tl1 := { r.1 with scales := r.1.scales.setIfInBounds b sc }
      ((s.setTile tile (tl1.stickSk (skGroup c.cfg) r.2)).chargeCmd c 0x31 (reads + 512)).completed c

/-- Skink performs a thread's next command whole (R297, log 10). -/
def performSkink (s : State) (c : Cmd) : State :=
  match c.op with
  | .sumCfg new =>
    (match s.thread? c.name.thread with
    | none => s
    | some t =>
      let (s1, t1) := s.setSumCfg t new
      (s1.setThread t1).completed c)
  | .shape y ops leafs ctl =>
    let tl := s.tile (c.name.thread / 4)
    (s.setTile (c.name.thread / 4) { tl with shapes := tabSet tl.shapes y { ops, leafs, ctl } }).completed c
  | .up va vb y nosave => performPass s c va vb y false nosave
  | .down va vb y acc => performPass s c va vb y true acc
  | .skLoad h recd base b wa cnt => performSkLoad s c h recd base b wa cnt
  | .skStore h recd base b wa cnt fmt scale mode => performSkStore s c h recd base b wa cnt fmt scale mode
  | .norm b setTo => performNorm s c b setTo
  | .noop _ => s.completed c
  | _ => s

def execSkCommandPerform (tile thread : Nat) (s : State) : Out := perform .sk tile thread s performSkink

end Sys2Proof.Machine
end

