-- ==== Sys2Proof/Machine/Cuts.lean ====
section
/-! DEFINITION. Marker cuts (R249 to R256): requests, alignment records, completion, forced cuts, and the stop
and the resumption of an instance (R247, R284, R308). -/

namespace Sys2Proof.Machine

/-! ### Purposes (R249) -/

def quiescing (p : Nat) : Bool := decide (p % 8 ≠ 0) || bit p 4
def stopping (p : Nat) : Bool := bit p 1 || bit p 2 || bit p 4
def Cut.purpose (c : Cut) : Nat := c.purposes.toNat
def Cut.quiesces (c : Cut) : Bool := quiescing c.purpose

/-! ### The boundary (R250) -/

/-- The repetition count of an actor in the current mode (R224). -/
def Inst.reps (i : Inst) (a : Nat) : Nat :=
  -- DESIGN CHOICE (log 107): R224 bounds QREP nowhere, and R250 divides by it; a QREP of 0 counts as 1.
  let x := i.actors.getD a {}
  max 1 (x.qrep * 2 ^ wbits x.qmode (4 * i.mode) 4)

/-- The handles of an actor at an end (0 consumer, 1 producer), with their rings. -/
def Inst.ends (i : Inst) (a e : Nat) : List (Nat × Ring) :=
  (List.range 16).filterMap fun h =>
    match i.ringOf a h with
    | some (_, r, e') => if e' = e then some (h, r) else none
    | none => none

/-- A source has no input that is a forward edge (R250); a worker has no firings, and a sink aligns by its input
(R321). -/
def Inst.isSource (i : Inst) (a : Nat) : Bool :=
  let x := i.actors.getD a {}
  decide (x.kind ≤ 1) && (i.ends a 0).all fun e => e.2.back

/-- The threads of an instance. -/
def State.threadsOf (s : State) (part inst : Nat) : List Thread :=
  (s.threads.map Prod.snd).filter fun t => decide (t.part = part ∧ t.inst = inst)

/-- The thread that an actor's launch created (R229, R230): a thread actor's, or a worker's first. -/
def State.actorThread (s : State) (part inst a : Nat) : Option Thread :=
  (s.threadsOf part inst).find? fun t => decide (t.actor = a ∧ t.ordinal = a)

/-- The firings that an actor has begun, an open one included (R250). -/
def State.begun (s : State) (i : Inst) (a : Nat) : Nat :=
  let opened := (s.threadsOf i.part i.num).any (fun t => !t.worker && decide (t.actor = a) && t.region.any fun r => !r.isTask) ||
    s.subs.any fun u => decide (u.name.part = i.part ∧ u.name.inst = i.num ∧ u.actor = a ∧ u.inFiring ≠ 0)
  (i.actors.getD a {}).firings + if opened then 1 else 0

/-- The boundary of a cut that starts now. -/
def State.boundary (s : State) (i : Inst) : Nat :=
  (List.range i.actors.length).foldl (fun k a =>
    if i.isSource a then max k ((s.begun i a + i.reps a - 1) / i.reps a) else k) 0

/-- Word 0 of a cut's marker slots (R249). -/
def markerWord (num purposes mode user : Nat) : Word :=
  word (purposes % 64 + (if bit purposes 0 then mode % 16 * 64 else 0) + num % 1024 * 1024 +
    if bit purposes 5 then user % 4096 * 2 ^ 20 else 0)

/-- Whether slot `k` from Head holds a marker of the cut (R249, R250). -/
def State.markAt (s : State) (tile : Nat) (h : Handle) (num k : Nat) : Bool :=
  let pa := h.slotPa tile (h.l.toNat + h.p + k)
  bit (s.readNat (pa + h.slotB - 64) 4) 21 && decide (bits (s.readNat pa 4) 10 10 = num % 1024)

/-- Whether the slot at Head holds a marker of the cut. -/
def State.headMark (s : State) (tile : Nat) (h : Handle) (num : Nat) : Bool :=
  ((s.avail? tile h).any fun n => decide (n ≥ 1)) && s.markAt tile h num 0

/-- Whether the cut has reached a thread actor at its `fire.begin` (R250 items 3 and 5). -/
def State.reached (s : State) (i : Inst) (c : Cut) (t : Thread) : Bool :=
  let fwd := (i.ends t.actor 0).filter fun e => !e.2.back
  if fwd.isEmpty then decide ((i.actors.getD t.actor {}).firings ≥ i.reps t.actor * c.k)
  else fwd.all fun e => s.headMark t.tile (t.handle e.1) c.num

/-- Whether a thread holds where it aligned (R246, R251 item 5). -/
def State.cutHolds (s : State) (t : Thread) : Bool :=
  match s.inst? t.part t.inst with
  | none => false
  | some i => match i.cut with
    | none => false
    | some c => c.quiesces && if t.worker then t.aligned else (i.actors.getD t.actor {}).aligned

/-! ### Engine state (R284, R308, R369) -/

/-- The bytes listed in a range of physical memory, by offset from its start. -/
def State.cellsIn (s : State) (lo n : Nat) : List (Nat × Byte) :=
  (s.mem.filter fun c => decide (lo ≤ c.1 ∧ c.1 < lo + n)).map fun c => (c.1 - lo, c.2)

/-- The descriptors listed for the 64-byte lines of a range of physical memory, by line from its start (R61). -/
def State.descsIn (s : State) (lo n : Nat) : List (Nat × BitVec 16) :=
  (s.descs.filter fun d => decide (lo / 64 ≤ d.1 ∧ d.1 < (lo + n) / 64)).map fun d => (d.1 - lo / 64, d.2)

/-- A range of memory takes these bytes and line descriptors, and zero elsewhere, as one publication. -/
def State.putCells (s : State) (lo n : Nat) (cells : List (Nat × Byte)) (descs : List (Nat × BitVec 16) := []) : State :=
  s.publish ((s.cellsIn lo n).map (fun c => (lo + c.1, (0 : Byte))) ++ cells.map fun c => (lo + c.1, c.2))
    ((s.descsIn lo n).map (fun d => (lo / 64 + d.1, (0 : BitVec 16))) ++ descs.map fun d => (lo / 64 + d.1, d.2))

/-- The engine state of a thread at its tile. -/
def State.saveEngine (s : State) (t : Thread) : SavedEngine :=
  let tl := s.tile t.tile
  let mine := some (t.part, t.inst, t.num)
  { ordinal := t.ordinal
    macros := (if tl.macro0.owner = mine then [(0, tl.macro0)] else []) ++ (if tl.macro1.owner = mine then [(1, tl.macro1)] else [])
    columns := s.cellsIn (storeBase t.tile 2 + mxBase t.mxTcfg * 512) (mxCount t.mxTcfg * 512)
    mxFlags := tl.mxFlags
    banks := tl.banks.filter fun e => skBank t.skTcfg (e.1 / 256)
    scales := ((List.range 16).filter (skBank t.skTcfg)).map fun b => (b, tl.scales.toArray.getD b 0)
    shapes := tl.shapes.filter fun e => skShape t.skTcfg e.1
    skFlags := ((List.range 4).filter (skTree t.skTcfg)).map fun g => (g, tl.skFlags.toArray.getD g 0) }

/-- The bytes of a thread's saved engine state (R369). -/
def SavedEngine.size (e : SavedEngine) (t : Thread) : Nat :=
  let banks := ((List.range 16).filter (skBank t.skTcfg)).length
  let shapes := ((List.range 64).filter (skShape t.skTcfg)).length
  (0x20000 + 0x1000 + 4) * e.macros.length + 8 + 512 * mxCount t.mxTcfg + 8 + 1028 * banks + 24 * shapes + 8 + e.skFlags.length

/-- The 64-byte lines of what a cut records or saves of a thread: its context, its pages' region states, its engine state
(R365, R368, R369). -/
def State.recordLines (s : State) (t : Thread) : Nat :=
  32 + ((s.pagesOf t).map Page.saveLines).sum + ((s.saveEngine t).size t + 63) / 64

/-- The charge of writing some lines of a cut record, a page or a save, to the instance's account (R260). -/
def State.chargeSave (s : State) (i : Inst) (t : Thread) (lines : Nat) : State := s.charge (s.islandOf t.tile) i.acct 0x22 lines

/-- The charge of the record of everything an instance holds. -/
def State.chargeRecord (s : State) (i : Inst) : State :=
  (s.threadsOf i.part i.num).foldl (fun s t => s.chargeSave i t (s.recordLines t)) s

/-- The flags that a save clears (R284, R308). -/
def State.clearFlags (s : State) (t : Thread) : State :=
  let tl := s.tile t.tile
  s.setTile t.tile { tl with
    mxFlags := 0
    skFlags := (List.range 4).foldl (fun f g => if skTree t.skTcfg g then f.setIfInBounds g 0 else f) tl.skFlags }

/-- Saved engine state is written back at a thread's tile; saved flags are ORed in (R284, R308). -/
def State.loadEngine (s : State) (t : Thread) (e : SavedEngine) : State :=
  let s1 := s.putCells (storeBase t.tile 2 + mxBase t.mxTcfg * 512) (mxCount t.mxTcfg * 512) e.columns
  let tl := e.macros.foldl (fun (tl : Tile) m => tl.setMacro m.1 { m.2 with owner := some (t.part, t.inst, t.num) }) (s1.tile t.tile)
  s1.setTile t.tile { tl with
    mxFlags := tl.mxFlags ||| e.mxFlags
    banks := e.banks.foldl (fun bs w => sparseSet 0 bs w.1 w.2) (tl.banks.filter fun w => !(skBank t.skTcfg (w.1 / 256)))
    scales := e.scales.foldl (fun v x => v.setIfInBounds x.1 x.2) tl.scales
    shapes := e.shapes.foldl (fun ys y => tabSet ys y.1 y.2) (tl.shapes.filter fun y => !(skShape t.skTcfg y.1))
    skFlags := e.skFlags.foldl (fun f g => f.setIfInBounds g.1 (f.toArray.getD g.1 0 ||| g.2)) tl.skFlags }

/-- Runs a thread's accepted engine commands to their end, in issue order (R284, R308, R315). -/
def State.finishThread (s : State) (num : Nat) : Nat → State
  | 0 => s
  | n + 1 =>
    let tl := s.tile (num / 4)
    let mine := tl.cmds.filter fun c => decide (c.name.thread = num)
    match mine.find? fun c => mine.all fun d => decide (c.id ≤ d.id) with
    | none => s
    | some c =>
      let s1 := s.setTile (num / 4) (tl.dropCmds fun d => decide (d.id = c.id))
      (performMovement (performSkink (performMatrix s1 c) c) c).finishThread num n

/-- What an engine does with a command that it has taken. -/
def Unit_.run : Unit_ → State → Cmd → State
  | .mx => performMatrix
  | .sk => performSkink
  | .cp => performMovement

/-- One of the engines that hold accepted commands of some threads performs the one that it takes (R246, R279). -/
def State.finishOne (s : State) (nums : List Nat) : Option State :=
  ((nums.map (· / 4)).eraseDups.flatMap fun tile => [Unit_.mx, .sk, .cp].map fun u => (tile, u)).findSome? fun e =>
    (s.engineChoiceAmong e.2 e.1 nums.contains).bind fun n => (s.engineHead e.2 n).map fun c => e.2.run (s.takeCmd e.2 e.1 c) c

/-- Runs accepted commands of some threads to their end, at most `n` of them, in the order that their engines take them. -/
def State.finishAll (s : State) (nums : List Nat) : Nat → State
  | 0 => s
  | n + 1 => match s.finishOne nums with
    | some s1 => s1.finishAll nums n
    | none => s

/-- Runs the accepted commands of every thread of an instance to their end (R255, R284, R308, R315): those that a fence holds
behind an MSE's command follow. -/
def State.finishCommands (s : State) (part inst : Nat) : State :=
  let nums := (s.threadsOf part inst).map Thread.num
  let s1 := s.finishAll nums ((nums.map (· / 4)).eraseDups.map fun tile => (s.tile tile).cmds.length).sum
  (s1.threadsOf part inst).foldl (fun s t => s.finishThread t.num (s.tile t.tile).cmds.length) s1

/-! ### Alignment (R251) -/

/-- The record of a thread that aligns: its context, its handles' counters, its pages' region states, its engine state, its
actor's phase and firing count, and the subscriptions that it began (R251, R321). A CKPT cut first publishes its buffered
stores (R398), and records the threads that an actor has spawned as they stand then, with their engine state (R308; DESIGN
CHOICE, log 130: R251 names no point for them). -/
def State.recordAlign (s : State) (t : Thread) : State :=
  match s.inst? t.part t.inst with
  | none => s
  | some i =>
    match i.cut with
    | none => s
    | some c =>
      let kin := if bit c.purpose 3 && !t.worker then
          (s.threadsOf t.part t.inst).filter fun u => decide (u.actor = t.actor ∧ u.num ≠ t.num) && u.region.isNone
        else []
      let s0 := kin.foldl (fun s u => let (s1, u1) := s.publishAll u; s1.setThread u1) s
      let (s1, t1) := if bit c.purpose 3 && t.region.isNone then s0.publishAll t else (s0, t)
      let all := t1 :: kin.map fun u => { u with buf := [] }
      let c1 := { c with
        pos := (all.map fun u => (u.ordinal, s1.pubCount)) ++ c.pos
        logAt := (all.map fun u => (u.ordinal, (s1.part t.part).log.length)) ++ c.logAt
        threads := (all.map fun u => { u with state := .stopped, wait := none }) ++ c.threads
        pages := s1.pagesOf t1 ++ c.pages
        subs := (s1.subs.filter fun u => decide (u.thread = some t1.num ∧ u.name.part = t1.part ∧ u.name.inst = t1.inst ∧ u.name.ordinal = t1.ordinal)) ++ c.subs
        actors := if t.worker then c.actors else (t.actor, i.actors.getD t.actor {}) :: c.actors
        engines := all.map s1.saveEngine ++ c.engines }
      let i1 := { i with
        cut := some c1
        actors := if t.worker then i.actors
          else i.actors.mapIdx fun k x => if k = t.actor then { x with aligned := true } else x }
      ((s1.chargeSave i t1 (s1.recordLines t1)).setInst i1).setThread { t1 with aligned := true }

/-- A worker Waiting at `q.wait` with no open task aligns when a cut starts, once its accepted engine commands are done
(R284, R308, R315); a quiescing cut withdraws its wait (R251). -/
def State.alignWaiter (s : State) (t : Thread) : State :=
  let atWait : Bool := t.wait.any fun w => match w.instr with | .qWait _ => true | _ => false
  if !t.worker || t.aligned || t.region.isSome || !atWait || decide (t.state ≠ .waiting) || s.outstanding t then s
  else
    let s1 := s.recordAlign t
    match s1.thread? t.num with
    | none => s1
    | some t1 => if s1.cutHolds t1 then s1.withdraw t1 else s1

/-! ### Start and requests (R250, R254) -/

/-- Whether a cut of an instance may start now: under replay, when the log's next event is its start (R403). -/
def State.cutTurn (s : State) (part num : Nat) : Bool :=
  match (s.part part).replay with
  | [] => true
  | r :: _ => decide (r.typ = 10 ∧ r.inst = num)

/-- A cut starts (R250): its deadline counts from now, in elapsed time (R384). -/
def State.startCut (s : State) (i : Inst) (purposes mode user : Nat) (ns : Option Nat) : State :=
  let num := (i.started + 1).toNat
  let c : Cut := { num, purposes := BitVec.ofNat 6 purposes, injected := markerWord num purposes mode user, mode, user
                   k := s.boundary i, deadline := ns.map (s.dev.elapsed + ·) }
  let i1 := { i with started := i.started + 1, state := .cutting, cut := some c
                     actors := i.actors.map fun x => { x with aligned := false, markStep := 0, markOut := [] } }
  let s0 := match s.replayed? i.part with
    | some r => if r.typ = 10 ∧ r.inst = i.num then s.popReplay i.part else s
    | none => s
  let s1 := (s0.setInst i1).logEvent i.part { typ := 10, inst := i.num, a := num % 2 ^ 32, b := word purposes }
  let s2 : State := { s1 with
    threads := s1.threads.map fun (e : Nat × Thread) => if e.2.part = i.part ∧ e.2.inst = i.num then (e.1, { e.2 with aligned := false }) else e
    subs := s1.subs.map fun (u : Sub) => if u.name.part = i.part ∧ u.name.inst = i.num then { u with marked := false } else u }
  (s2.threadsOf i.part i.num).foldl State.alignWaiter s2

/-- The earlier of two deadlines, of which none is the latest. -/
def earlier : Option Nat → Option Nat → Option Nat
  | none, y => y
  | x, none => x
  | some x, some y => some (min x y)

/-- Purposes gather in the pending cut (R254). -/
def Inst.pend (i : Inst) (purposes mode user : Nat) (ns : Option Nat) : Inst :=
  let p := i.pending.getD {}
  { i with pending := some { p with
      purposes := p.purposes ||| BitVec.ofNat 6 purposes
      mode := if bit purposes 0 then mode else p.mode
      user := if bit purposes 5 then user else p.user
      deadline := earlier p.deadline ns } }

/-- A request for a cut with a deadline in ns from now (R250, R254): it starts, joins or waits. The number of the
cut that carries it is answered. -/
def State.requestCut (s : State) (part num purposes mode user : Nat) (ns : Option Nat) : State × Nat :=
  match s.inst? part num with
  | none => (s, 0)
  | some i =>
    match i.cut with
    | some c =>
      let join := if c.quiesces then Nat.land purposes 0x1F else Nat.land purposes 8
      let rest := purposes - join
      let c1 := if join = 0 then c else { c with
        purposes := c.purposes ||| BitVec.ofNat 6 join
        mode := if bit join 0 then mode else c.mode
        deadline := earlier c.deadline (ns.map (s.dev.elapsed + ·)) }
      let i1 := { i with cut := some c1 }
      if rest = 0 then (s.setInst i1, c.num)
      else (s.setInst (i1.pend rest mode user ns), (i.started + 1).toNat)
    | none =>
      if i.state = .running ∧ i.pending = none ∧ i.goOn = none ∧ s.cutTurn part num then (s.startCut i purposes mode user ns, (i.started + 1).toNat)
      else (s.setInst (i.pend purposes mode user ns), (i.started + 1).toNat)

/-- What starts once an instance runs with no cut: the MODE continuation of a forced cut with a fresh MCDL
(R255), else the pending cut (R254). -/
def State.startNext (s : State) (part num : Nat) : State :=
  match s.inst? part num with
  | none => s
  | some i =>
    if i.state ≠ .running ∨ i.cut.isSome then s
    else
      match i.goOn, i.pending with
      | some c, _ => s.setInst { i with goOn := none, state := .cutting
                                        cut := some { c with deadline := some (s.dev.elapsed + 1000 * i.mcdl) } }
      | none, some p => if !(s.cutTurn part num) then s else s.startCut { i with pending := none } p.purpose p.mode p.user p.deadline
      | none, none => s

/-! ### Stop and resumption (R247, R253) -/

/-- A thread of an instance that stops: its wait is withdrawn, an open region is aborted by R147 steps 1 to 4, else its
stores are published (R84, R365). One that has stopped already keeps its record, and a stop that was due is taken. -/
def State.stopThread (s : State) (t : Thread) : State :=
  if t.state = .stopped then s
  else match t.stopDue with
    | some d => s.stopNow t d
    | none => let (s1, t1) := s.halt t; s1.setThread t1

/-- Every page of an instance is removed, saved where `save` says so (R245, R253, R255). -/
def State.evictAll (s : State) (part inst : Nat) (save : Page → Bool := fun _ => true) : State :=
  (s.pages.filter fun e => decide (e.2.part = part ∧ e.2.inst = inst)).foldl (fun s e => s.evict e.1 (save e.2)) s

/-- The stop of an instance: commands done, threads stopped, pages removed, engine state saved and its flags
cleared. -/
def State.stopInst (s : State) (part inst : Nat) (st : InstState) : State :=
  let s1 := s.finishCommands part inst
  let s2 := ((s1.threadsOf part inst).foldl State.stopThread s1).evictAll part inst
  let r := (s2.threadsOf part inst).foldl (fun (a : State × List SavedEngine) t => (a.1.clearFlags t, a.2 ++ [a.1.saveEngine t])) (s2, [])
  match r.1.inst? part inst with
  | none => r.1
  | some i => r.1.setInst { i with state := st, saved := r.2, stoppedSince := r.1.dev.elapsed, cut := none }

/-- Whether an account is exhausted (R341). -/
def State.exhausted (s : State) (acct : Nat) : Bool := decide (acct ≠ 64) && bit (s.account acct).status.toNat 0

/-- Whether an instance may not run: a thread of it carries an account that is exhausted (R344). -/
def State.instExhausted (s : State) (i : Inst) : Bool := (s.threadsOf i.part i.num).any fun t => s.exhausted t.acct

/-- An instance runs on (R247): with its quota exhausted it is QUOTA (R344), with too few regions
SUSPENDED_REGIONS; else its engine state is written back and its threads are restored. -/
def State.runInst (s : State) (part inst : Nat) : State :=
  match s.inst? part inst with
  | none => s
  | some i =>
    if s.instExhausted i then s.setInst { i with state := .quota, resizeWait := false }
    else if i.rmin > (s.part part).tiles.length then s.setInst { i with state := .suspendedRegions, resizeWait := false }
    else
      let s0 := s.setInst { i with state := .running, saved := [], schedStopped := false, resizeWait := false, diverged := false }
      -- Its pages wait from now on: a page of a stopped instance does not wait (R243).
      let s1 : State := { s0 with pages := s0.pages.map fun e =>
        if e.2.part = part ∧ e.2.inst = inst then (e.1, { e.2 with waitSince := s.dev.elapsed }) else e }
      let s2 := (s.threadsOf part inst).foldl (fun s t =>
        match i.saved.find? fun e => decide (e.ordinal = t.ordinal) with | some e => s.loadEngine t e | none => s) s1
      let s3 := (s2.threadsOf part inst).foldl (fun s t => if t.state = .stopped ∧ t.recordId = 0 then s.restoreThread t else s) s2
      s3.startNext part inst

/-! ### Completion (R252, R253) -/

/-- Whether a back-edge input of an aligned actor awaits the marker of its producer: not of an arc link, and not
of an actor that has ended. -/
def Inst.awaits (i : Inst) (r : Ring) : Bool :=
  r.back && decide (r.prod ≠ 0xFFFF) && !(i.actors.getD r.prod {}).ended

/-- The back-edge inputs of thread actors and workers, with the thread that holds each. -/
def State.backInputs (s : State) (i : Inst) : List (Nat × Nat × Thread) :=
  (List.range i.actors.length).flatMap fun a =>
    match s.actorThread i.part i.num a with
    | none => []
    | some t => ((i.ends a 0).filter fun e => i.awaits e.2).map fun e => (a, e.1, t)

/-- The slots that stand before the cut's marker in a ring, if the marker stands there. -/
def State.beforeMark (s : State) (c : Cut) (t : Thread) (h : Handle) : Option Nat :=
  (List.range ((s.avail? t.tile h).getD 0)).find? fun k => s.markAt t.tile h c.num k

/-- Whether a cut is complete: every actor and worker has aligned, and every back-edge marker has been taken or,
in a quiescing cut, stands in its ring; where it stops the instance, every `phase.sync` in progress has completed (R150). -/
def State.cutDone (s : State) (i : Inst) (c : Cut) : Bool :=
  (!(stopping c.purpose) || (s.threadsOf i.part i.num).all fun t => !(t.syncWait.isSome && s.outstanding t)) &&
  i.actors.all (fun x => decide (x.kind = 3) || x.ended || x.aligned) &&
  (s.threadsOf i.part i.num).all (fun t => !t.worker || t.aligned) &&
  (s.backInputs i).all fun e => c.backTaken.contains (e.1, e.2.1) ||
    (c.quiesces && (s.beforeMark c e.2.2 (e.2.2.handle e.2.1)).isSome)

/-- The slots recorded in place at a quiescing completion (R252). -/
def State.inPlace (s : State) (i : Inst) (c : Cut) : List (Nat × Nat × Nat × List Byte) :=
  (s.backInputs i).flatMap fun e =>
    let h := e.2.2.handle e.2.1
    if c.backTaken.contains (e.1, e.2.1) then []
    else (List.range ((s.beforeMark c e.2.2 h).getD 0)).map fun k =>
      let v := h.l.toNat + h.p + k
      (e.1, e.2.1, v, s.readBytes (h.slotPa e.2.2.tile v) h.slotB)

/-- The lines of some recorded slots. -/
def slotLines (xs : List (Nat × Nat × Nat × List Byte)) : Nat := (xs.map fun x => (x.2.2.2.length + 63) / 64).sum

/-- The charge of the slots that a completion records, each at the tile of its reader (R260). -/
def State.chargeSlots (s : State) (i : Inst) (xs : List (Nat × Nat × Nat × List Byte)) : State :=
  xs.foldl (fun s x => match s.actorThread i.part i.num x.1 with
    | some t => s.chargeSave i t (slotLines [x])
    | none => s) s

/-- A checkpoint in progress keeps an instance as it stands when its cut is done, with the cut's record (R399). -/
def State.keepRecord (s : State) (i : Inst) (c : Cut) : State :=
  if !(bit c.purpose 3) then s
  else
    let state : InstState := if bit c.purpose 2 then .quota else if stopping c.purpose then .stopped else .running
    let p := s.part i.part
    s.setPart i.part { p with ckInsts := p.ckInsts ++ [{ i with state, ckRec := some c }] }

/-- A cut completes (R253). With both PREEMPT and RESIZE the instance stays STOPPED after the resize: R253 gives PREEMPT
that state, and R257 step 5 resumes "every other instance" (DESIGN CHOICE, log 108). -/
def State.completeCut (s : State) (i : Inst) (c : Cut) : State :=
  let xs := s.inPlace i c
  let s := s.chargeSlots i xs
  -- A subscription whose thread has exited still belongs to the instance (R321).
  let left := s.subs.filter fun u => decide (u.name.part = i.part ∧ u.name.inst = i.num ∧ u.actor = 0xFFFF) &&
    (c.threads.all fun t => decide (t.ordinal ≠ u.name.ordinal)) && c.subs.all fun v => decide (v.id ≠ u.id)
  let c1 := { c with slots := c.slots ++ xs, subs := c.subs ++ left }
  let m := bit c.purpose 0
  let i1 := { i with
    completed := i.completed + 1
    cut := none
    mode := if m then c.mode else i.mode
    actors := if m then i.actors.map fun x => { x with phase := 0, firings := 0 } else i.actors
    resizeWait := bit c.purpose 4 && !bit c.purpose 1 }
  let s1 := (s.setInst i1).keepRecord i1 { c1 with doneAt := s.pubCount, logDone := (s.part i.part).log.length }
  if stopping c.purpose then
    let s2 := s1.stopInst i.part i.num (if bit c.purpose 2 then .quota else .stopped)
    if bit c.purpose 2 && !bit c.purpose 4 && !(s2.instExhausted i) then s2.runInst i.part i.num else s2
  else
    -- Workers held at `q.wait` issue it again (R251).
    let s2 : State := { (s1.setInst { i1 with state := .running }) with
      threads := s1.threads.map fun (e : Nat × Thread) =>
        let held : Bool := e.2.wait.any fun w => match w.instr with | .qWait _ => true | _ => false
        if e.2.part = i.part ∧ e.2.inst = i.num ∧ e.2.worker ∧ e.2.aligned ∧ c.quiesces ∧ held ∧ e.2.state = .waiting then
          (e.1, { e.2 with state := .ready, wait := none })
        else e }
    s2.startNext i.part i.num

/-- A marker stands at Head of a handle: its cut's number, modulo 1024. -/
def State.headMarker (s : State) (tile : Nat) (h : Handle) : Option Nat :=
  let pa := h.slotPa tile (h.l.toNat + h.p)
  if ((s.avail? tile h).any fun n => decide (n ≥ 1)) && bit (s.readNat (pa + h.slotB - 64) 4) 21 then some (bits (s.readNat pa 4) 10 10) else none

/-- BACK_EDGE_MARKER_TAKE (R252): a marker stands at Head of a back-edge input, with no slot before it taken and not
applied. One of the cut in progress is taken once the actor has aligned, which ends the recording; one of a cut that is
over, which a quiescing completion left in the ring, is taken as it reaches Head. So is one that a forced cut left on
any input. -/
def execBackEdgeMarkerTake (part inst actor h : Nat) (s : State) : Out :=
  match s.inst? part inst, s.actorThread part inst actor with
  | some i, some t =>
    let hd := t.handle h
    let isBack := (i.ends actor 0).any fun e => decide (e.1 = h) && e.2.back
    let isInput := (i.ends actor 0).any fun e => decide (e.1 = h)
    let aligned := if t.worker then t.aligned else (i.actors.getD actor {}).aligned
    match s.headMarker t.tile hd with
    | none => .next s
    | some m =>
      let cutOf : Option Nat := i.cut.map fun c => c.num % 1024
      let now := decide (cutOf = some m)
      if !i.runs || decide (hd.p ≠ 0) || !(if now then isBack && aligned else isInput) then .next s
      else
        let s1 := { s with pubBy := some (part, inst, t.ordinal) }.publish (hd.applyCells t.tile 1)
        let s2 := s1.charge (s1.islandOf t.tile) i.acct 0x22 1
        .next ((s2.setThread (t.setHandle h (hd.applied 1))).setInst
          (if now then { i with cut := i.cut.map fun c => { c with backTaken := (actor, h) :: c.backTaken } } else i))
  | _, _ => .next s

/-! ### Forced cuts (R255) -/

/-- The frozen state as a cut record: every agent stands where it is. -/
def State.frozen (s : State) (i : Inst) (c : Cut) : Cut :=
  let ts := s.threadsOf i.part i.num
  { c with
    forced := true
    doneAt := s.pubCount
    logDone := (s.part i.part).log.length
    logAt := (ts.map fun t => (t.ordinal, (s.part i.part).log.length)) ++ (List.range i.actors.length).map fun a => (a, (s.part i.part).log.length)
    pos := (ts.map fun t => (t.ordinal, s.pubCount)) ++ (List.range i.actors.length).map fun a => (a, s.pubCount)
    slots := []
    threads := ts
    pages := (s.pages.map Prod.snd).filter fun p => decide (p.part = i.part ∧ p.inst = i.num)
    subs := s.subs.filter fun u => decide (u.name.part = i.part ∧ u.name.inst = i.num)
    actors := (List.range i.actors.length).map fun a => (a, i.actors.getD a {})
    engines := ts.map fun t => (i.saved.find? fun e => decide (e.ordinal = t.ordinal)).getD (s.saveEngine t) }

/-- A cut that missed its deadline is forced (R255): the instance freezes, a MARKER_FORCED record goes to level S,
every purpose but MODE takes effect, and MODE continues when the instance next runs. -/
def State.forceCut (s : State) (i : Inst) (c : Cut) : State :=
  let s0 := (s.pages.filter fun e => decide (e.2.part = i.part ∧ e.2.inst = i.num)).foldl (fun s e =>
    match s.page? e.1 with | some p => s.drain e.1 p.st.flight.length | none => s) s
  -- The pages of an aborted firing are not saved (R255 step 4).
  let aborted := ((s0.threadsOf i.part i.num).filter fun t => t.region.any fun r => !r.isTask).flatMap fun t => (s0.pagesOf t).map Page.id
  let s1 := (s0.threadsOf i.part i.num).foldl (fun s t => if t.region.isSome then s.stopThread t else s) s0
  let s2 := s1.finishCommands i.part i.num
  let s3 := ((s2.threadsOf i.part i.num).foldl State.stopThread s2).evictAll i.part i.num fun p => !(aborted.contains p.id)
  let v := word (i.num % 2 ^ 32 + c.num % 1024 * 2 ^ 32 + c.purpose * 2 ^ 42)
  let (s4, _) := s3.addRecord i.part { cause := 0x81, kind := 2, value := v, name := { part := i.part, inst := i.num, acct := i.acct } }
  match s4.inst? i.part i.num with
  | none => s4
  | some i =>
    let m := bit c.purpose 0
    -- The saves of the freeze, and the frozen state as a cut record (R260).
    let s4 := (s4.threadsOf i.part i.num).foldl (fun s t => s.chargeSave i t (s.recordLines t - ((s.pagesOf t).map Page.saveLines).sum)) s4
    let s4 := if bit c.purpose 3 then s4.chargeRecord i else s4
    let i1 := { i with
      completed := if m then i.completed else i.completed + 1
      cut := none
      goOn := if m then some { c with purposes := 1, continuation := true } else i.goOn
      resizeWait := bit c.purpose 4 && !bit c.purpose 1 }
    let s5 := ((s4.setInst i1).keepRecord i1 (s4.frozen i c)).stopInst i.part i.num (if bit c.purpose 2 then .quota else .stopped)
    if stopping c.purpose && (bit c.purpose 4 || !bit c.purpose 2 || s5.instExhausted i) then s5 else s5.runInst i.part i.num

/-- Whether the deadline of a cut has come (R255). -/
def State.cutLate (s : State) (c : Cut) : Bool := c.deadline.any fun d => decide (d ≤ s.dev.elapsed)

/-- A cut in progress completes when it can (R253); one that is not complete at its deadline is forced (R255). -/
def State.cutCheck (s : State) (i : Inst) : State :=
  match s.inst? i.part i.num with
  | none => s
  | some i =>
    match i.cut with
    | none => s
    | some c =>
      if i.state ≠ .cutting then s
      else if s.cutDone i c && c.deadline.all fun d => decide (s.dev.elapsed ≤ d) then s.completeCut i c
      else if s.cutLate c then s.forceCut i c
      else s

/-- FORCED_CUT (R255): the deadline of the cut in progress has come. -/
def execForcedCut (part inst : Nat) (s : State) : Out :=
  match s.inst? part inst with
  | none => .next s
  | some i =>
    match i.cut with
    | none => .next s
    | some c => .next (if i.state = .cutting ∧ s.cutLate c then s.forceCut i c else s)

/-! ### `MK_INSTCTL` CMD 0 (R235) -/

/-- The deadline of a PREEMPT cut of a partition in ns (R248, R255). -/
def State.pdl (s : State) (part : Nat) : Nat := 1000 * (s.part part).pdl

/-- CMD 0: a PREEMPT cut on a RUNNING or CUTTING instance. -/
def State.instPreempt (s : State) (part inst : Nat) : State :=
  match s.inst? part inst with
  | none => s
  | some i =>
    if i.state = .running ∨ i.state = .cutting then ((s.setInst { i with schedStopped := false }).requestCut part inst 2 0 0 (some (s.pdl part))).1
    else s

/-- INSTCTL_PREEMPT (R235). -/
def execInstctlPreempt (part inst : Nat) (s : State) : Out := .next (s.instPreempt part inst)

end Sys2Proof.Machine
end

