-- ==== Sys2Proof/Machine/Flow.lean ====
section
/-! DEFINITION. Control flow, threads and the barrier: majors 0x10 to 0x14 (R100 to R112). -/

namespace Sys2Proof.Machine

/-- A taken transfer, which the trace unit sees (R386). -/
def State.jumpTo (s : State) (t : Thread) (i : Instr) (v : Word) : State :=
  let s1 := s.trace t 1 ((firstWord i).toNat / 67108864) t.pc t.seq v [(1, t.pc)]
  s1.setThread { t with pc := v, state := .ready, wait := none }

/-- `bc` (R100). -/
def execBc (p : BitVec 3) (n : BitVec 1) (o : BitVec 22) (s : State) : Out :=
  issue (.bc p n o) 0 s fun s t =>
    if (t.pred p.toNat) ^^ decide (n = 1) then s.jumpTo t (.bc p n o) (target t.pc o) else s.advance t (.bc p n o)

/-- `br` (R100). -/
def execBr (o : BitVec 22) (s : State) : Out :=
  issue (.br o) 0 s fun s t => s.jumpTo t (.br o) (target t.pc o)

/-- `call` (R101). -/
def execCall (o : BitVec 22) (s : State) : Out :=
  issue (.call o) 0 s fun s t => s.jumpTo (t.setReg 31 (t.pc + 4)) (.call o) (target t.pc o)

/-- A register jump (R102, R28). -/
def jumpReg (i : Instr) (r : Nat) (s : State) : Out :=
  issue i 0 s fun s t =>
    if (t.reg r).toNat % 4 ≠ 0 then s.raise t i 0x03 (t.reg r) else s.jumpTo t i (t.reg r)

/-- `jmp` (R102). -/
def execJmp (a : BitVec 5) (s : State) : Out := jumpReg (.jmp a) a.toNat s

/-- `ret` (R102). -/
def execRet (s : State) : Out := jumpReg .ret 31 s

/-- `loop` (R103). -/
def execLoop (a : BitVec 5) (imm : BitVec 16) (s : State) : Out :=
  issue (.loop a imm) 0 s fun s t =>
    let n := t.reg a.toNat - 1
    if n ≠ 0 then s.jumpTo (t.setReg a.toNat n) (.loop a imm) (target t.pc imm)
    else s.advance (t.setReg a.toNat n) (.loop a imm)

/-- The lowest Free slot of a tile (R105). -/
def State.freeSlot (s : State) (tile : Nat) : Option Nat :=
  ((List.range 4).map (4 * tile + ·)).find? fun n => (s.thread? n).isNone

/-- The lowest ordinal at or above `from_` that is free in an instance (R366). -/
def State.freeOrdinal (s : State) (part inst from_ : Nat) : Nat :=
  ((List.range 769).map (from_ + ·)).find? (fun o =>
    s.threads.all fun e => decide (¬ (e.2.part = part ∧ e.2.inst = inst ∧ e.2.ordinal = o))) |>.getD from_

/-- The state of a spawned thread (R106). -/
def spawned (s : State) (t : Thread) (slot : Nat) (entry arg : Word) : Thread :=
  let nact := match s.inst? t.part t.inst with | some i => i.actors.length | none => 0
  { (({ num := slot } : Thread).setReg 1 arg) with
    pc := entry, sw := swOf t.level 0 t.prio t.acct, part := t.part, inst := t.inst, actor := t.actor
    worker := t.worker, ordinal := s.freeOrdinal t.part t.inst nact, maxLevel := t.maxLevel }

/-- The slot that a replay gives a spawn, where its thread has not exited yet: the spawn waits for that exit (R107). -/
def State.spawnEarly (s : State) (t : Thread) (i : Instr) : Option Nat :=
  match s.gate t i 7 with
  | .hit r => if r.b ≠ allOnes ∧ (s.thread? r.b.toNat).isSome then some r.b.toNat else none
  | _ => none

/-- `thr.spawn` (R105 to R107). -/
def execThrSpawn (d a b : BitVec 5) (s0 : State) : Out :=
  issue (.thrSpawn d a b) 0 s0 fun s t =>
    let entry := t.reg a.toNat
    if t.region.isSome then s.raise t (.thrSpawn d a b) 0x04 entry
    else if entry.toNat % 4 ≠ 0 then s.raise t (.thrSpawn d a b) 0x03 entry
    else if (s.spawnEarly t (.thrSpawn d a b)).isSome then s0.holdBack t.num (s.spawnEarly t (.thrSpawn d a b))
    else
      let live := match s.freeSlot t.tile with | some n => word n | none => allOnes
      s.event s0 t (.thrSpawn d a b) 7 0 live fun s1 v =>
        let s2 := s1.result t (.thrSpawn d a b) d v
        if v = allOnes then s2 else s2.setThread (spawned s t v.toNat entry (t.reg b.toNat))

/-- The completion test of a barrier generation: every waiting member goes on (R110, R111). -/
def State.barTest (s : State) (tile : Nat) : State :=
  let tl := s.tile tile
  if tl.barOpen && (List.range 4).all (fun k => !(bit tl.barReq k) || bit tl.barArr k) then
    let s1 := s.setTile tile { tl with barOpen := false, barMask := 0, barReq := 0, barArr := 0 }
    { s1 with threads := s1.threads.map fun e =>
        match e.2.wait with
        | some w =>
          (match w.instr with
          | .bar _ => if e.2.tile = tile ∧ e.2.state = .waiting then (e.1, { e.2 with state := .ready, wait := none, pc := e.2.pc + 4 }) else e
          | _ => e)
        | none => e }
  else s

/-- `bar` (R110). -/
def execBar (a : BitVec 5) (s : State) : Out :=
  issue (.bar a) 0 s fun s t =>
    let own := 2 ^ t.index
    let m := Nat.lor (wbits (t.reg a.toNat) 0 4) own
    let tl := s.tile t.tile
    if tl.barOpen ∧ m ≠ tl.barMask then s.raise t (.bar a) 0x04 (t.reg a.toNat)
    else
      let live := (List.range 4).foldl (fun n k => if bit m k ∧ (s.thread? (4 * t.tile + k)).isSome then n + 2 ^ k else n) 0
      let tl1 := if tl.barOpen then { tl with barArr := Nat.lor tl.barArr own }
        else { tl with barOpen := true, barMask := m, barReq := live, barArr := own }
      ((s.setTile t.tile tl1).waitAt t (.bar a)).barTest t.tile

/-- `thr.yield` (R109): the thread counts as having issued most recently, which its issue has made it. -/
def execThrYield (s : State) : Out := issue .thrYield 0 s fun s t => s.advance t .thrYield

/-- What the exit of a thread means to its instance (R234): an actor whose last thread has gone ends,
and its subscriptions stop; an instance with no thread left is ENDING. -/
def State.exited (s : State) (t : Thread) : State :=
  match s.inst? t.part t.inst with
  | none => s
  | some i =>
    let others := s.threads.filter fun e => e.2.part = t.part ∧ e.2.inst = t.inst
    let actorGone := others.all fun e => decide (e.2.actor ≠ t.actor)
    let i1 := if actorGone then
        { i with actors := i.actors.mapIdx fun k a => if k = t.actor then { a with ended := true } else a } else i
    -- An instance that ends runs no cut any more.
    let i2 := if others.isEmpty then { i1 with state := .ending, cut := none, pending := none, goOn := none } else i1
    if actorGone then
      (s.subs.filter fun u => decide (u.name.part = t.part ∧ u.name.inst = t.inst ∧ u.tileActor = t.actor)).foldl State.stopSub (s.setInst i2)
    else s.setInst i2

/-- A thread's slot becomes Free (R108 steps 4 and 5): it leaves the barrier, and no macro is its own any more. -/
def State.retire (s : State) (t : Thread) : State :=
  let tl := s.tile t.tile
  let drop (m : Macro) : Macro := if m.owner = some (t.part, t.inst, t.num) then { m with owner := none } else m
  let s1 := s.setTile t.tile { tl with
    barReq := if bit tl.barReq t.index then tl.barReq - 2 ^ t.index else tl.barReq
    macro0 := drop tl.macro0, macro1 := drop tl.macro1 }
  { s1 with threads := tabErase s1.threads t.num }

/-- Steps 2 to 5 of `thr.exit`, at its issue and at each wake (R108). -/
def exitCore (s : State) (t : Thread) : State :=
  if s.outstanding t then s.waitAt t .thrExit
  else
    match (List.range 4).find? fun n => (t.expects.toArray.getD n {}).armed with
    | some n => s.raise t .thrExit 0x04 (word (0x10 + n))
    | none =>
      let (s1, _) := s.publishAll t
      ((s1.retire t).exited t).barTest t.tile

/-- `thr.exit` (R108). -/
def execThrExit (s : State) : Out :=
  issue .thrExit 0 s fun s t => if t.region.isSome then s.raise t .thrExit 0x04 0 else exitCore s t

end Sys2Proof.Machine
end

