-- ==== Sys2Proof/Machine/Mse.lean ====
section
/-! DEFINITION. The memory-side engines (R316 to R322). -/

namespace Sys2Proof.Machine

/-! ### The subscription record (R317) -/

def subDir (bs : List Byte) : Nat := bits (field bs 0 8) 0 1
def subDests (bs : List Byte) : Nat := bits (field bs 0 8) 1 3
def subRps (bs : List Byte) : Nat := bits (field bs 0 8) 4 12
def subRepeat (bs : List Byte) : Nat := bits (field bs 0 8) 32 32
def subTensor (bs : List Byte) : Tensor := tensorOf (bs.drop 64) 0

/-- Extra destination `k` from 1: its tile, its slot window and its control block. -/
def subDest (bs : List Byte) (k : Nat) : Nat × Nat × Nat :=
  let w := field bs (8 * k) 8
  (bits w 0 8, bits w 8 20, bits w 28 20)

/-- The geometry of an extra destination, as R189 has it for a ring. -/
def destOk (h : Handle) (d : Nat × Nat × Nat) : Bool :=
  decide (d.2.1 % 64 = 0 ∧ d.2.2 % 64 = 0 ∧ d.2.1 + h.depth * h.slotB ≤ 0x100000)

/-- The checks of R317, R217 and of the extra destinations (R320): the cause of the first that fails. -/
def State.subBad (s : State) (h : Handle) (bs : List Byte) : Option Nat :=
  let w0 := field bs 0 8
  let n := subDests bs
  let r := subTensor bs
  let ks := (List.range 6).map (· + 1)
  if bits w0 16 16 ≠ 0 ∨ n > 6 ∨ (subDir bs = 1 ∧ n ≠ 0) ∨ subRps bs = 0 ∨ field bs 0x38 8 ≠ 0 then some 0x06
  else if ks.any fun k => if k ≤ n then decide (bits (field bs (8 * k) 8) 48 16 ≠ 0) else decide (field bs (8 * k) 8 ≠ 0) then some 0x06
  else if r.space ≠ 0 then some 0x06
  else
    match r.check (decide (subDir bs = 1)) false with
    | some c => some c
    | none =>
      if subRps bs * r.rowb > h.slotB - 64 ∨ subRps bs * r.rowb / 4 > 4096 ∨ r.rowb % 4 ≠ 0 then some 0x06
      else if ks.any fun k => decide (k ≤ n) && (!(destOk h (subDest bs k)) || !(s.tile (subDest bs k).1).present) then some 0x06
      else none

/-- The slot windows and control blocks of a subscription: the tile end and the extra destinations (R318). -/
def Sub.dests (u : Sub) : List (Nat × Nat × Nat) :=
  (u.tile, u.desc.base, u.desc.lrcb) :: (List.range (subDests u.record)).map fun k => subDest u.record (k + 1)

def Sub.agent (u : Sub) : Agent := { part := u.name.part, level := u.level, tile := u.tile, acct := u.name.acct, mse := some u.mse }

/-! ### The three commands (R320) -/

/-- A subscription begins on a ring: the MSE's counter is what its control block holds (R316). A start row at or
past the tensor leaves the first pass without rows. -/
def State.newSub (s : State) (name : Name) (level : Nat) (thread : Option Nat) (actor tileActor handle tile : Nat) (h : Handle)
    (bs : List Byte) (start : Nat) (left done : Option Nat) (fence : Nat) (inRegion : Bool) : Sub :=
  let past := decide (start ≥ (subTensor bs).rows)
  { id := s.nextCmd, name, mse := h.peer, thread, actor, tileActor, level, handle, desc := h, tile, record := bs
    row := if past then 0 else start, passes := if past then 1 else 0
    posted := s.readNat (apertureBase tile + h.lrcb) 8
    left, done, cmd := s.nextCmd, fence, inRegion
    finished := (subTensor bs).none_ || (past && decide (subRepeat bs = 1) && left.isNone) }

/-- Whether a subscription still has slots to move or a command to complete: the others wait for markers alone. -/
def Sub.active (u : Sub) : Bool := !u.finished || u.left.isSome

/-- Whether a subscription serves the ring whose tile end has its control block there, as its own tile end or as an extra
destination (R316). -/
def Sub.serves (u : Sub) (tile lrcb : Nat) : Bool := u.dests.any fun d => decide (d.1 = tile ∧ d.2.2 = lrcb)

/-- The subscription that serves a ring (R316): the one that is active, else one whose tensor has ended. -/
def State.subAt (s : State) (tile lrcb : Nat) : Option Sub :=
  (s.subs.find? fun u => u.active && u.serves tile lrcb).orElse fun _ => s.subs.find? fun u => u.serves tile lrcb

/-- The subscription on a ring. -/
def State.subOn (s : State) (tile : Nat) (h : Handle) : Option Sub := s.subAt tile h.lrcb

/-- Whether a ring that a record names beside the tile end has a subscription already (R316, log 105). -/
def State.destBusy (s : State) (bs : List Byte) : Bool :=
  (List.range (subDests bs)).any fun k =>
    let d := subDest bs (k + 1)
    (s.subAt d.1 d.2.2).any Sub.active

/-- Whether a subscription from a record would give a ring a second one (R316). -/
def State.ringBusy (s : State) (tile : Nat) (h : Handle) (bs : List Byte) : Bool :=
  (s.subOn tile h).any Sub.active || s.destBusy bs

/-- The low 32 bits of the command's sequence number go to its completion word (R320). -/
def State.subWord (s : State) (u : Sub) (off : Nat) : State :=
  let cells := cellsAt (storeBase u.tile 1 + off) (leBytes 4 u.name.seq.toNat)
  (s.chargeWrites u.agent cells).publish cells

/-- The issue of `ms.sub` and `ms.pull`. A record that moves nothing makes the command a no-op that still writes its
completion word (R217): at once, or behind a fence in its turn at the MSE (R135). -/
def msBegin (i : Instr) (hn : Nat) (a : BitVec 5) (start : Nat) (left done : Option Nat) (s : State) (t : Thread) : State :=
  let h := t.handle hn
  let va := t.reg a.toNat
  if !h.bound || decide (h.peerKind ≠ 1) then s.raiseFree t i 0x04
  else
    withRecord i s t va 128 fun s bs =>
      if h.role ≠ subDir bs ∨ s.ringBusy t.tile h bs then s.raiseFree t i 0x04
      else if left.isSome ∧ subDir bs = 0 then s.raiseFree t i 0x06
      else
        match s.subBad h bs with
        | some c => s.recordFault t i c (va + 64)
        | none =>
        if s.blockBad t.tile h then s.ringFault t i h
        else
          let t1 := t.bumpSeq
          let name := t1.commandName i
          let u := s.newSub name t.level (some t.num) 0xFFFF t.actor hn t.tile h bs start left done t.fence t.region.isSome
          let s1 := match s.subOn t.tile h with | some o => s.dropSub o | none => s
          let s2 := ({ s1 with nextCmd := s1.nextCmd + 1 }.traceEngine t1 i).advance t1 i
          if u.finished && left.isSome && !(s.fenceOk t.num t.fence) then { s2 with subs := s2.subs ++ [{ u with left := some 0 }] }
          else if u.finished then
            (match done with | some off => s2.subWord u off | none => s2).traceDone name 0
          else
            let s3 := { s2 with subs := s2.subs ++ [u] }
            if left.isNone then s3.traceDone name 0 else s3

/-- `ms.sub` (R320). -/
def execMsSub (h : BitVec 4) (a : BitVec 5) (x : Half) (s : State) : Out :=
  issue (.msSub h a x) 0 s fun s t => msBegin (.msSub h a x) h.toNat a x.toNat none none s t

/-- A pull of s[b] slots, 1 to 2^32 (R320). -/
def msPullIssue (i : Instr) (h : BitVec 4) (a b : BitVec 5) (done : Option Nat) (s : State) : Out :=
  issue i 0 s fun s t =>
    let n := (t.reg b.toNat).toNat
    let hd := t.handle h.toNat
    if !hd.bound || decide (hd.peerKind ≠ 1) then s.raiseFree t i 0x04
    else if n = 0 ∨ n > 2 ^ 32 then s.raiseFree t i 0x06
    else if done.any fun off => decide (off % 4 ≠ 0) then s.raiseFree t i 0x06
    else msBegin i h.toNat a 0 (some n) done s t

/-- `ms.pull` (R320). -/
def execMsPull (h : BitVec 4) (a b : BitVec 5) (s : State) : Out := msPullIssue (.msPull h a b) h a b none s

/-- `ms.pull` with a completion word (R320). -/
def execMsPullDone (h : BitVec 4) (a b : BitVec 5) (x : Half) (s : State) : Out :=
  msPullIssue (.msPullDone h a b x) h a b (some (xbits x 0 20)) s

/-- `ms.stop`, at its issue and at each wake (R320): it waits for the commands before a fence (R135). One that finds a pull
already stopping completes with it. -/
def msStopCore (i : Instr) (hn : Nat) (s : State) (t : Thread) : State :=
  let h := t.handle hn
  if !h.bound || decide (h.peerKind ≠ 1) then s.raiseFree t i 0x04
  else if !(s.fenceOk t.num t.fence) then s.waitAt t i
  else
    let t1 := t.bumpSeq
    let s1 := ({ s with nextCmd := s.nextCmd + 1 }.traceEngine t1 i).advance t1 i
    match s1.subOn t.tile h with
    | none => s1.traceDone (t1.commandName i) 0
    | some u =>
      let u1 := { u with stoppers := u.stoppers ++ [(t1.commandName i, s.nextCmd, hn)] }
      if u.stopping then s1.setSub u1 else (s1.setSub u1).stopSub u1

/-- `ms.stop` (R320). -/
def execMsStop (h : BitVec 4) (s : State) : Out := issue (.msStop h) 0 s (msStopCore (.msStop h) h.toNat)

/-! ### Firings of MSE actors (R321) -/

/-- The actor entry of an MSE actor. -/
def Inst.actor (i : Inst) (a : Nat) : Actor := i.actors.getD a {}

/-- The slots of an MSE actor's firing in its phase; an unmonitored handle moves one (R220). -/
def Inst.firingSlots (i : Inst) (u : Sub) : Nat := (i.declared i.mode u.actor (i.actor u.actor).phase u.handle).getD 1

/-- A firing of an MSE actor ends: its phase and its firing count move on. -/
def Inst.fired (i : Inst) (a : Nat) : Inst :=
  { i with actors := i.actors.mapIdx fun k x =>
      if k = a then { x with firings := x.firings + 1, phase := (x.phase + 1) % (i.rate i.mode a).1 } else x }

/-- Phases that declare no slot pass at once. -/
def Inst.skipEmpty (i : Inst) (u : Sub) : Nat → Inst
  | 0 => i
  | n + 1 => if u.inFiring = 0 ∧ i.firingSlots u = 0 then (i.fired u.actor).skipEmpty u n else i

/-- Whether a source's marker is due: its cut is in progress and not yet aligned with, and its firings have reached
the boundary or its tensor has ended (R250, R321). -/
def Inst.markerDue (i : Inst) (u : Sub) : Bool :=
  match i.cut with
  | none => false
  | some c => decide (u.actor ≠ 0xFFFF) && !(i.actor u.actor).aligned && decide (u.inFiring = 0) &&
      (u.finished || decide ((i.actor u.actor).firings ≥ i.reps u.actor * c.k))

/-- An MSE actor aligns: its position, passes and counters enter the cut's record (R321), which is charged by the lines it
takes (R260, log 7). -/
def State.alignSub (s : State) (i : Inst) (u : Sub) : State :=
  match i.cut with
  | none => s
  | some c => (s.chargePath (s.islandAt u.agent) i.acct [0x22]).setInst { i with
      cut := some { c with pos := (u.actor, s.pubCount) :: c.pos, logAt := (u.actor, (s.part i.part).log.length) :: c.logAt
                           subs := u :: c.subs, actors := (u.actor, i.actor u.actor) :: c.actors }
      actors := i.actors.mapIdx fun k x => if k = u.actor then { x with aligned := true } else x }

/-- The instance of a subscription. -/
def State.subInst (s : State) (u : Sub) : Option Inst := s.inst? u.name.part u.name.inst

/-- Whether a subscription may be served at all: its instance runs, its actor does not hold, and the commands
before its fence are done. A stopping one drains whatever its instance's state (R320, R321). -/
def State.subFree (s : State) (u : Sub) : Bool :=
  (u.stopping || match s.subInst u with
    | none => true
    | some i => i.runs && !(decide (u.actor ≠ 0xFFFF) && (i.actor u.actor).aligned && i.cut.any Cut.quiesces)) &&
  match u.thread with | some n => s.fenceOk n u.fence | none => true

/-- The advances of a destination's consumer end (R316). -/
def State.destLocal (s : State) (d : Nat × Nat × Nat) : Nat := s.readNat (apertureBase d.1 + d.2.2 + 8) 8

/-- The posted slots of the tile end of a pull. -/
def State.sinkPosted (s : State) (u : Sub) : Nat := s.readNat (apertureBase u.tile + u.desc.lrcb + 8) 8

/-- The trailer word of the slot that a pull takes next. -/
def State.sinkTrailer (s : State) (u : Sub) : Nat :=
  s.readNat (u.desc.slotPa u.tile u.posted + u.desc.slotB - 64) 4

/-- The first control block of a subscription that holds an uncorrectable error (R149). -/
def State.subBlockBad (s : State) (u : Sub) : Option (Nat × Nat × Nat) :=
  u.dests.find? fun d => s.bad (apertureBase d.1 + d.2.2) 64

/-- Whether a subscription can be served now: room at every destination of a push, a posted slot for a pull, or a control
block that cannot be read; one whose tensor has ended serves markers alone; a pull that moves nothing ends once its fence
has passed. -/
def State.subReady (s : State) (u : Sub) : Bool :=
  s.subFree u &&
    if u.left = some 0 then true
    else if (s.subBlockBad u).isSome && !u.finished then true
    else if u.pulls then
      decide (u.posted < s.sinkPosted u) && (!u.finished || bit (s.sinkTrailer u) 21) && (!u.stopping || decide (u.posted < u.stopAt))
    else
      u.dests.all (fun d => decide (u.posted < s.destLocal d + u.desc.depth)) &&
        (!u.finished || match s.subInst u with | some i => i.markerDue u | none => false)

/-- The subscription that an MSE serves next: the highest instance priority, then cyclic order (R322). -/
def State.mseChoice (s : State) (mse : Nat) : Option Nat :=
  let mine := s.subs.filter fun u => decide (u.mse = mse)
  let last := ((pick (fun (x y : Sub) => decide (x.lastServed > y.lastServed)) mine).map Sub.id).getD 0
  let prio (u : Sub) : Nat := match s.subInst u with | some i => i.prio | none => 0
  let before (x y : Sub) : Bool :=
    if prio x ≠ prio y then decide (prio x > prio y)
    else if decide (x.id > last) ≠ decide (y.id > last) then decide (x.id > last)
    else decide (x.id < y.id)
  (pick before (mine.filter s.subReady)).map Sub.id

/-- A fault of a subscription's reads or writes, of a kind of access, stops it at its last whole slot and traps the thread
that started it (R321, R315); for an MSE actor a KIND 2 record is written, and also where the thread that started a
standing subscription has exited (DESIGN CHOICE, log 124: R321 names no other receiver). -/
def State.subFault (s : State) (u : Sub) (cause : Nat) (value : Word) (access : Nat := 0) : State :=
  let s1 := s.dropSub { u with left := none }
  let starter := u.thread.any fun n => (s.thread? n).any fun t =>
    decide (t.part = u.name.part ∧ t.inst = u.name.inst ∧ t.ordinal = u.name.ordinal)
  match starter with
  | true => (s1.traceDone u.name cause).asyncTrap u.name u.inRegion (if cause = 0x22 ∧ !u.inRegion then 0x21 else cause) access value
  | false => (s1.addRecord u.name.part { cause, kind := 2, access, value, name := u.name }).1

/-- What is left of a subscription after a slot: a finished MSE actor stays for its markers. -/
def State.subEnds (s : State) (u : Sub) : State :=
  let gone := decide (u.left = some 0) || (u.stopping && decide (u.posted ≥ u.stopAt)) || (u.finished && decide (u.actor = 0xFFFF))
  if !gone then s.setSub u
  else
    let s1 := match u.done with
      | some off => if u.left = some 0 then s.subWord u off else s
      | none => s
    s1.dropSub u

/-- After a data slot: the firing and the tensor move on; a tensor that ends inside a firing leaves a shortfall
(R321), a pull of a count ends with its completion word (R320). `rows` rows have been passed. -/
def State.afterSlot (s : State) (u : Sub) (rows : Nat) : State :=
  let total := (subTensor u.record).rows
  let wraps := decide (u.row + rows ≥ total)
  let passes := if wraps then u.passes + 1 else u.passes
  let finished := wraps && decide (subRepeat u.record ≠ 0) && decide (passes ≥ subRepeat u.record) && u.left.isNone
  let u1 := { u with row := if wraps then 0 else u.row + rows, passes, finished, left := u.left.map (· - 1), lastServed := s.steps + 1 }
  match s.subInst u1 with
  | some i =>
    if u1.actor = 0xFFFF then s.subEnds u1
    else
      let n := i.firingSlots u1
      let got := u1.inFiring + 1
      if got ≥ n then (s.setInst (i.fired u1.actor)).subEnds { u1 with inFiring := 0 }
      else if finished then
        let x := i.actor u1.actor
        let e := rateExt u1.handle false false x.phase i.mode n got 0 u1.actor x.firings
        ((s.addRecord u1.name.part { cause := 0x42, kind := 2, value := word (leNat (e.take 8)), name := u1.name, ext := zeros 32 ++ e }).1).subEnds
          { u1 with inFiring := 0 }
      else s.subEnds { u1 with inFiring := got }
  | none => s.subEnds u1

/-! ### A push (R318) -/

/-- The payload of a slot, block by block, with the descriptor of each block that comes whole from one block; one that is
assembled from pieces of two keeps the destination's old descriptor (DESIGN CHOICE, log 125: R62, R318). -/
def State.gatherSlot (s : State) (g : Agent) (r : Tensor) : Nat → Nat → Nat → Nat → State × Except EngFault (List Byte × List (Nat × BitVec 16))
  | 0, _, _, _ => (s, .ok ([], []))
  | f + 1, b, p, left =>
    if left = 0 then (s, .ok ([], []))
    else
      let k := min 64 left
      match s.readRuns g 0 r.fmt (r.runs k p k) with
      | (s1, .error e) => (s1, .error e)
      | (s1, .ok (bs, ds)) =>
        match s1.gatherSlot g r f (b + 1) (p + k) (left - k) with
        | (s2, .error e) => (s2, .error e)
        | (s2, .ok (cs, es)) =>
          let mine := match ds with | [(d, true)] => if k = 64 then [(b, d)] else [] | _ => []
          (s2, .ok (bs ++ cs, mine ++ es))

/-- A slot is posted to every destination, one publication for each: payload, trailer and REMOTE0 (R316, R318), with the
charges of the lines it writes (R322). The trailer line keeps the descriptor it had (log 106). -/
def State.postSub (s : State) (u : Sub) (payload : List Byte) (descs : List (Nat × BitVec 16)) (trailer : Nat) : State :=
  u.dests.foldl (fun s d =>
    let pa := apertureBase d.1 + d.2.1 + u.posted % u.desc.depth * u.desc.slotB
    let cells := cellsAt pa payload ++ cellsAt (pa + u.desc.slotB - 64) (leBytes 4 trailer ++ zeros 60) ++
      cellsAt (apertureBase d.1 + d.2.2) (leBytes 8 (u.posted + 1))
    (s.chargeWrites u.agent cells).publish cells (descs.map fun e => (pa / 64 + e.1, e.2))) s

/-- E of a push's slot: 3 on the last of a pass, 2 on the last of a plane, else 1 (R318). -/
def slotRank (r : Tensor) (row n : Nat) : Nat :=
  if row + n = r.rows then 3 else if (row + n) / r.e1 > row / r.e1 then 2 else 1

/-- A control block that an MSE cannot read (R149, R316): the error is recorded, and the subscription faults. -/
def State.blockFault (s : State) (u : Sub) (d : Nat × Nat × Nat) : State :=
  (s.memUe (apertureBase d.1 + d.2.2) 0).subFault u 0x90 (if d.1 = u.tile then word d.2.2 else word (apertureBase d.1 + d.2.2))

/-- A push fills and posts one slot, or its cut's marker slot. -/
def State.pushSlot (s : State) (u : Sub) : State :=
  match s.subBlockBad u with
  | some d => s.blockFault u d
  | none =>
  let r := subTensor u.record
  let i0 := (s.subInst u).map fun i => if u.actor = 0xFFFF then i else i.skipEmpty u 16
  let s0 := match i0 with | some i => s.setInst i | none => s
  let due := i0.any fun i => i.markerDue u
  if due then
    match i0 with
    | none => s0
    | some i =>
      let w := (i.cut.map Cut.injected).getD 0
      let u1 := { u with posted := u.posted + 1, marked := true, lastServed := s.steps + 1 }
      ((((s0.postSub u (leBytes 4 w.toNat) [] (trailerWord 0 0 0 false true)).charge (s0.islandAt u.agent) i.acct 0x22 u.dests.length).setSub u1)).alignSub i u1
  else
    let n := min (subRps u.record) (r.rows - u.row)
    match s0.gatherSlot u.agent r (n * r.rowb) 0 (u.row * r.rowb) (n * r.rowb) with
    | (s1, .error e) => s1.subFault u e.cause (word e.value) e.access
    | (s1, .ok (bs, descs)) =>
      match u.dests.find? fun d => !((s1.part u.name.part).tiles.contains d.1) with
      | some d => s1.subFault u 0x21 (word (apertureBase d.1 + d.2.1)) 1
      | none =>
        let s2 := (s1.postSub u bs descs (trailerWord (n * r.rowb / 4) (slotRank r u.row n) 0 false false)).charge
          (s1.islandAt u.agent) u.name.acct 0x39 ((n * r.rowb + 63) / 64)
        s2.afterSlot { u with posted := u.posted + 1 } n

/-- The agent under which an MSE publishes: its actor, or the thread that started it (R399). -/
def State.mseAgent (s : State) (u : Sub) : State :=
  { s with pubBy := some (u.name.part, u.name.inst, if u.actor = 0xFFFF then u.name.ordinal else u.actor) }

/-- MSE_PUSH_SLOT (R318): the MSE serves this subscription if it is the one it takes (R322). -/
def execMsePushSlot (sub : Nat) (s : State) : Out :=
  match s.subs.find? fun u => decide (u.id = sub) with
  | none => .next s
  | some u => .next (if u.pulls || decide (s.mseChoice u.mse ≠ some sub) then s else (s.mseAgent u).pushSlot u)

/-! ### A pull (R319) -/

/-- The advance of a taken slot, one publication (R316). -/
def State.advanceSub (s : State) (u : Sub) : State :=
  let cells := cellsAt (apertureBase u.tile + u.desc.lrcb) (leBytes 8 (u.posted + 1))
  (s.chargeWrites u.agent cells).publish cells

/-- A pull takes one posted slot. A marker slot of the cut in progress aligns a sink; any marker is taken and moves
no row. Payload past the tensor's last row is not written. -/
def State.pullSlot (s : State) (u : Sub) : State :=
  if u.left = some 0 then s.subEnds u
  else match s.subBlockBad u with
  | some d => s.blockFault u d
  | none =>
  let r := subTensor u.record
  let i0 := (s.subInst u).map fun i => if u.actor = 0xFFFF then i else i.skipEmpty u 16
  let s := match i0 with | some i => s.setInst i | none => s
  let pa := u.desc.slotPa u.tile u.posted
  let w := s.sinkTrailer u
  let line := pa + u.desc.slotB - 64
  let u1 := { u with posted := u.posted + 1 }
  let s := s.chargeEngine u.agent line 64
  if s.bad line 64 || (bit w 21 && s.bad pa 4) then
    (s.memUe (if s.bad line 64 then line else pa) 0).subFault u 0x90 (word (u.desc.slotOffset u.posted))
  else if bit w 21 then
    let num := bits (s.readNat pa 4) 10 10
    let s1 := s.advanceSub u
    let u2 := { u1 with lastServed := s.steps + 1, marked := true }
    match i0 with
    | some i =>
      let mine := decide (u.actor ≠ 0xFFFF) && !(i.actor u.actor).aligned && i.cut.any fun c => decide (c.num % 1024 = num)
      let s2 := s1.charge (s1.islandAt u.agent) i.acct 0x22 1
      let s3 := if mine then (s2.setSub u2).alignSub i u2 else s2
      if u2.stopping && decide (u2.posted ≥ u2.stopAt) then s3.dropSub u2 else s3.setSub u2
    | none => if u2.stopping && decide (u2.posted ≥ u2.stopAt) then s1.dropSub u2 else s1.setSub u2
  else
    let count := bits w 0 13
    if 4 * count > subRps u.record * r.rowb then s.subFault u 0x06 (word (u.desc.slotOffset u.posted))
    else
      let n := if bit w 20 then 0 else min (4 * count) ((r.rows - u.row) * r.rowb)
      let src : Tensor := { base := u.desc.slotOffset u.posted, space := 1, rowb := max n 1, fmt := r.fmt, e1 := 1, e2 := 1, e3 := 1
                            s1 := 0, s2 := 0, s3 := 0, clean := true }
      match moveBytes u.agent u.name.acct 0x39 src r 0 (u.row * r.rowb) n 0 n s with
      | (s1, _, some e) => s1.subFault u e.cause (word e.value) e.access
      | (s1, _, none) => (s1.advanceSub u).afterSlot u1 (subRps u.record)

/-- MSE_PULL_SLOT (R319). -/
def execMsePullSlot (sub : Nat) (s : State) : Out :=
  match s.subs.find? fun u => decide (u.id = sub) with
  | none => .next s
  | some u => .next (if !u.pulls || decide (s.mseChoice u.mse ≠ some sub) then s else (s.mseAgent u).pullSlot u)

end Sys2Proof.Machine
end

