-- ==== Sys2Proof/Machine/Firing.lean ====
section
/-! DEFINITION. Firings and the end of an idempotent region (R125, R236 to R238), alignment at `fire.begin` (R251),
mode and cut requests (R256), page requests (R241, R242) and `rmon.rd` (R240). -/

namespace Sys2Proof.Machine

/-- The issue of a form of major 0x3C, with its GRAPH charge (R231). -/
def graphIssue (i : Instr) (s : State) (k : State → Thread → State) : Out :=
  issue i 0 s fun s t => k (s.chargeThread t 0x21 1) t

/-! ### The end of a region (R125, R200, R237) -/

/-- Slots taken and not applied become applied, one handle after another, with the counter writes (R194). -/
def Thread.applyTakes (t : Thread) : List (Nat × Nat) → List (Nat × Byte) × Thread
  | [] => ([], t)
  | (h, n) :: r =>
    let hd := t.handle h
    let (cs, t1) := (t.setHandle h (hd.applied n)).applyTakes r
    (hd.applyCells t.tile n ++ cs, t1)

/-- The finished slots of a page's ports, in entry order (R200). -/
def Page.portTakes (p : Page) : List (Nat × Nat) :=
  (List.range (pgPorts p.image)).filterMap fun e =>
    if (p.port e).finished = 0 then none else some (portHandle p.image e, (p.port e).finished)

/-- A page whose ports' slots have been applied counts from zero again. -/
def Page.portsApplied (p : Page) : Page :=
  { p with st := { p.st with ports := p.st.ports.map fun e => (e.1, { e.2 with finished := 0, finishedMark := 0, count := 0 }) } }

/-- The ports of every page of a thread have been applied. -/
def State.portsApplied (s : State) (t : Thread) : State :=
  (s.pagesOf t).foldl (fun s p => s.setPage p.portsApplied) s

/-- What an open region has taken, as its end applies it: the deferred list, then the ports. -/
def State.regionTakes (s : State) (t : Thread) (r : Region) : List (Nat × Nat) :=
  (r.deferred.map fun d => match d with | .take h n => (h, n)) ++ (s.pagesOf t).flatMap Page.portTakes

/-- The end of a region: stores, takes and queue records are one publication, in that order (R125, R237). -/
def State.endRegion (s : State) (t : Thread) (r : Region) : State × Thread :=
  let (cs, t1) := t.applyTakes (s.regionTakes t r)
  let s1 := (s.chargeBuffered t t.buf).chargeCells (s.islandOf t.tile) t.bill t.tile cs
  let (s2, qs) := s1.deferCells t r.pubs
  let s3 := ((s2.publish (bufCells t.buf ++ cs ++ qs) r.descs).deferDone t.part r.pubs).portsApplied t
  let s4 : State := { s3 with
    subs := s3.subs.map fun (u : Sub) => if u.thread = some t.num then { u with inRegion := false } else u }
  -- Its commands' slots have been applied with the region (R270).
  let own (q : List Cmd) : List Cmd := q.map fun c => if c.name.thread = t.num then
    { c with inRegion := false, slots := if c.inRegion then [] else c.slots } else c
  let tl := s4.tile t.tile
  let s5 := if tl.cmds.any fun c => decide (c.name.thread = t.num) then
    s4.setTile t.tile { tl with mxQ := own tl.mxQ, skQ := own tl.skQ, cpQ := own tl.cpQ } else s4
  (s5, { t1 with buf := [], region := none, expects := t1.expects.map fun e => { e with inRegion := false } })

/-- The queue records of a region's end under replay: performed in their turn (R403). -/
def State.pubTurn (s s0 : State) (t : Thread) (i : Instr) (n : Nat) (k : State → State) : State :=
  if n = 0 then k s
  else s.turn s0 t i 2 fun s r =>
    match r with
    | none => k s
    | some _ => k ((List.range (n - 1)).foldl (fun s _ => s.popReplay t.part) s)

/-- Whether commands that a thread issued from a number on are outstanding (R133, R237). -/
def State.outstandingFrom (s : State) (t : Thread) (n : Nat) : Bool :=
  (s.tile t.tile).cmds.any (fun c => decide (c.name.thread = t.num ∧ c.id ≥ n)) ||
    s.subs.any fun u => (decide (u.thread = some t.num ∧ u.cmd ≥ n) && u.left.isSome) ||
      u.stoppers.any fun k => decide (k.1.thread = t.num ∧ k.2.1 ≥ n)

/-! ### Alignment at `fire.begin` (R251) -/

/-- The wanted pages of a thread. -/
def State.wantedPages (s : State) (t : Thread) : List Page := (s.pagesOf t).filter Page.wanted

/-- Whether a port of a wanted page is bound to a handle. -/
def State.servedByPort (s : State) (t : Thread) (h : Nat) : Bool :=
  (s.wantedPages t).any fun p => (List.range (pgPorts p.image)).any fun e => decide (portHandle p.image e = h)

/-- An actor of an instance changed. -/
def State.setActor (s : State) (i : Inst) (a : Nat) (f : Actor → Actor) : State :=
  match s.inst? i.part i.num with
  | none => s
  | some i => s.setInst { i with actors := i.actors.mapIdx fun k x => if k = a then f x else x }

/-- Whether a page's marker firing has ended: every element and RSU has forwarded its marker, and every output
port has written what it was given (R251 step 1). -/
def Page.markerFired (p : Page) : Bool :=
  p.region.isSome && p.markersDone && p.st.ports.all fun e => e.2.held.isEmpty

/-- The marker firing begins on every wanted page of the thread. -/
def State.startMarkers (s : State) (t : Thread) (c : Cut) : State :=
  (s.wantedPages t).foldl (fun s p => s.setPage { p with
    waitSince := if p.region.isNone then s.dev.elapsed else p.waitSince
    st := { p.st with aligning := true, cutNum := c.injected.toNat, marked := [], backDone := [], backRecs := [], recs := [] } }) s

/-- The slots of the marker firing are applied, and its pages' ports close. -/
def State.endMarkers (s : State) (t : Thread) : State × Thread :=
  let (cs, t1) := t.applyTakes ((s.wantedPages t).flatMap Page.portTakes)
  let s1 := (((s.chargeCells (s.islandOf t.tile) t.acct t.tile cs).publish cs).portsApplied t)
  let s2 := (s1.wantedPages t).foldl (fun s p => s.setPage { p with st := { p.st with aligning := false } }) s1
  (s2.setThread t1, t1)

/-- The marker slots of the forward inputs that no port serves are taken. -/
def State.takeMarkers (s : State) (t : Thread) (i : Inst) : State × Thread :=
  let hs := ((i.ends t.actor 0).filter fun e => !e.2.back && !(s.servedByPort t e.1)).map Prod.fst
  let (cs, t1) := t.applyTakes (hs.map fun h => (h, 1))
  ((((s.chargeCells (s.islandOf t.tile) i.acct t.tile cs).publish cs).charge (s.islandOf t.tile) i.acct 0x22 hs.length).setThread t1, t1)

/-- A marker slot is posted on a producer end, one publication (R187, R249). -/
def State.postMarker (s : State) (t : Thread) (i : Inst) (c : Cut) (h : Nat) : State × Thread :=
  let hd := t.handle h
  let v := hd.l.toNat + hd.p
  let put (off : Nat) (bs : List Byte) : List (Nat × Byte) := (hd.slotPas t.tile v off).flatMap fun pa => cellsAt pa bs
  let t1 := t.setHandle h (hd.applied 1)
  let cs := put 0 (leBytes 4 c.injected.toNat) ++ put (hd.slotB - 64) (leBytes 4 (trailerWord 0 0 0 false true) ++ zeros 60) ++
    hd.applyCells t.tile 1
  let s1 := (s.chargeCells (s.islandOf t.tile) i.acct t.tile cs).publish cs
  (((s1.charge (s1.islandOf t.tile) i.acct 0x22 1).setThread t1), t1)

/-- Posts the marker on each of some producer ends that has room; the ends that still wait are answered. -/
def State.postMarkers (s : State) (t : Thread) (i : Inst) (c : Cut) : List Nat → State × Thread × List Nat
  | [] => (s, t, [])
  | h :: r =>
    if ((s.avail? t.tile (t.handle h)).getD 0) = 0 then
      let (s1, t1, w) := s.postMarkers t i c r
      (s1, t1, h :: w)
    else
      let (s1, t1) := s.postMarker t i c h
      (s1.setActor i t.actor fun x => { x with markOut := h :: x.markOut }).postMarkers t1 i c r

/-- Align(), as far as it can go now; whether it is complete (R251). -/
def State.align (s : State) (t : Thread) (i : Inst) (c : Cut) : State × Thread × Bool :=
  let step := (i.actor t.actor).markStep
  let s1 := if step = 0 then (s.startMarkers t c).setActor i t.actor fun x => { x with markStep := 1 } else s
  if step ≤ 1 ∧ !((s1.wantedPages t).all Page.markerFired) then (s1, t, false)
  else
    let (s2, t2) := if step ≤ 1 then
        let (a, t1) := s1.endMarkers t
        let (b, t2) := a.takeMarkers t1 i
        (b.setActor i t.actor fun x => { x with markStep := 2 }, t2)
      else (s1, t)
    let outs := ((i.ends t.actor 1).filter fun e => !(s2.servedByPort t2 e.1) && !((i.actor t.actor).markOut.contains e.1)).map Prod.fst
    let (s3, t3, left) := s2.postMarkers t2 i c outs
    if left ≠ [] then (s3, t3, false)
    else
      let s4 := (s3.setThread t3).recordAlign t3
      (s4, (s4.thread? t3.num).getD t3, true)

/-! ### `fire.begin` and `fire.end` (R236, R237) -/

/-- Whether the phase's slots and room are present; none where a bound handle's counters break R188. -/
def State.firingReady (s : State) (t : Thread) (i : Inst) : Option Bool :=
  let phase := (i.actor t.actor).phase
  (List.range 16).foldl (fun acc h =>
    match acc, i.declared i.mode t.actor phase h with
    | none, _ => none
    | some b, none => some b
    | some b, some c =>
      let hd := t.handle h
      if !hd.bound then some b
      else (if hd.role = 0 then s.dataAvail t.tile hd else s.avail? t.tile hd).map fun n => b && decide (n ≥ c)) (some true)

/-- A firing opens (R236): its region starts from this `fire.begin` (R147). -/
def State.openFiring (s : State) (t : Thread) (i : Inst) : State :=
  let r : Region := { isTask := false, startPc := t.pc, regs := t.regs, preds := t.preds, spill := t.spill
                      mode := i.mode, phase := (i.actor t.actor).phase, firstCmd := s.nextCmd }
  let s1 := (s.wantedPages t).foldl (fun s p => if p.st.aligning then s.setPage { p with st := { p.st with aligning := false } } else s) s
  s1.advance (({ t with region := some r } : Thread).acquire s1) .fireBegin

/-- `fire.begin` once no cut has a claim on it. -/
def State.tryFiring (s : State) (t : Thread) (i : Inst) : State :=
  match s.firingReady t i with
  | none => match (List.range 16).find? fun h => (i.declared i.mode t.actor (i.actor t.actor).phase h).isSome && (t.handle h).bound &&
        s.blockBad t.tile (t.handle h) with
    | some h => s.ringFault t .fireBegin (t.handle h)
    | none => s.raiseFree t .fireBegin 0x06
  | some true => s.openFiring t i
  | some false => s.waitAt t .fireBegin

/-- `fire.begin`, at its issue and at each wake (R236). -/
def fireBeginCore (s : State) (t : Thread) : State :=
  if t.worker || t.region.isSome then s.raise t .fireBegin 0x04 0
  else
    match s.inst? t.part t.inst with
    | none => s.waitAt t .fireBegin
    | some i =>
      if !i.runs || s.cutHolds t then s.waitAt t .fireBegin
      else
        match i.cut with
        | none => s.tryFiring t i
        | some c =>
          let x := i.actor t.actor
          if x.aligned || (decide (x.markStep = 0) && !(s.reached i c t)) then s.tryFiring t i
          else
            -- The markers must all come before the inputs are taken; a thread's own commands come first (R284).
            if s.outstanding t then s.waitAt t .fireBegin
            else if let some e := ((i.ends t.actor 0) ++ (i.ends t.actor 1)).find? fun e => s.blockBad t.tile (t.handle e.1) then
              s.ringFault t .fireBegin (t.handle e.1)
            else
              let (s1, t1, done) := s.align t i c
              if !done || s1.cutHolds t1 then s1.waitAt t1 .fireBegin
              else
                match s1.inst? t.part t.inst with
                | some i1 => s1.tryFiring t1 i1
                | none => s1.waitAt t1 .fireBegin

/-- `fire.begin` (R236). -/
def execFireBegin (s : State) : Out := graphIssue .fireBegin s fireBeginCore

/-- The lowest handle that took less than it declares, with its declared and observed count (R237). -/
def State.shortHandle (s : State) (t : Thread) (r : Region) : Option (Nat × Nat × Nat) :=
  (List.range 16).findSome? fun h =>
    match s.declared t h with
    | none => none
    | some c => if r.taken.toArray.getD h 0 < c then some (h, c, r.taken.toArray.getD h 0) else none

/-- The first port of a wanted monitored page that passed fewer tokens than it declares (R237); one that has never been
placed has passed none. -/
def State.shortPort (s : State) (t : Thread) : Option (Nat × Nat × Nat × Nat) :=
  (((s.wantedPages t).map s.withImage).filter fun p => pgMon p.image).findSome? fun p =>
    (List.range (pgPorts p.image)).findSome? fun e =>
      match portDeclared p t e with
      | none => none
      | some c => if (p.port e).count < c then some (p.index, e, c, (p.port e).count) else none

/-- Whether a firing of an element or RSU still has tokens to emit toward a port: the second one of a `merge`, copies of a
`dup`, a scan's. -/
def Page.emitsLate (p : Page) : Bool :=
  (p.st.elems.any fun e => (e.2.second.isSome || decide (e.2.dupLeft ≠ 0)) && !(portsNamed e.1 (consumersOf p.image e.1)).isEmpty) ||
    p.st.rsus.any fun r => !r.2.emit.isEmpty && !(portsNamed 0 [rsuOut p.image r.1]).isEmpty

/-- Whether a monitored page still has tokens on their way into its output ports (R429). -/
def State.tokensUnwritten (s : State) (t : Thread) : Bool :=
  (s.wantedPages t).any fun p => pgMon p.image && ((p.st.ports.any fun e => !e.2.held.isEmpty) || p.emitsLate ||
    p.st.flight.any fun f => match f.dest with | .port _ => true | _ => false)

/-- The firing of an actor is over: its phase and its firing count move on (R237). -/
def State.firingOver (s : State) (t : Thread) (r : Region) : State :=
  match s.inst? t.part t.inst with
  | none => s
  | some i => s.setActor i t.actor fun x => { x with phase := (r.phase + 1) % (i.rate r.mode t.actor).1, firings := x.firings + 1 }

/-- `fire.end`, at its issue and at each wake (R237, R429). -/
def fireEndCore (s0 s : State) (t : Thread) : State :=
  match t.region with
  | none => s.raise t .fireEnd 0x04 0
  | some r =>
    if r.isTask then s.raise t .fireEnd 0x04 0
    else if s.outstandingFrom t r.firstCmd || s.tokensUnwritten t then s.waitAt t .fireEnd
    else
      match s.shortHandle t r with
      | some (h, c, n) => s.rateAbort t (t.nameAt t.pc t.seq) h false false c n 0 [] none
      | none =>
        match s.shortPort t with
        | some (ix, e, c, n) => s.rateAbort t (t.nameAt t.pc t.seq) e true false c n ix [] none
        | none =>
          match s.deferRoom t.part r.pubs r.pubs with
          | .no s1 => s1.waitAt t .fireEnd
          | .bad s1 c (some v) => s1.raise t .fireEnd c (word v)
          | .bad s1 c none => s1.raiseFree t .fireEnd c
          | .yes s1 =>
            s1.pubTurn s0 t .fireEnd r.pubs.length fun s =>
              let (s2, t1) := s.endRegion t r
              (s2.firingOver t r).advance t1 .fireEnd

/-- `fire.end` (R237). -/
def execFireEnd (s : State) : Out := graphIssue .fireEnd s (fireEndCore s)

/-! ### Modes and cuts (R256) -/

/-- A cut that a thread starts becomes its LASTCUT. -/
def State.threadCut (s : State) (t : Thread) (i : Instr) (purposes mode user : Nat) (ns : Option Nat) : State :=
  let (s1, n) := s.requestCut t.part t.inst purposes mode user ns
  s1.advance { (s1.thread? t.num).getD t with lastCut := word n } i

/-- Whether a purpose is in progress or pending, the MODE continuation of a forced cut included (R256). -/
def Inst.purposeOpen (i : Inst) (k : Nat) : Bool :=
  (i.cut.any fun c => bit c.purpose k) || (i.pending.any fun c => bit c.purpose k) || i.goOn.any fun c => bit c.purpose k

/-- `mode.req` (R256). -/
def execModeReq (a : BitVec 5) (s : State) : Out :=
  graphIssue (.modeReq a) s fun s t =>
    let v := t.reg a.toNat
    match s.inst? t.part t.inst with
    | none => s.raise t (.modeReq a) 0x06 v
    | some i =>
      if v.toNat ≥ 16 ∨ v.toNat ≥ i.nmode then s.raise t (.modeReq a) 0x06 v
      else if i.purposeOpen 0 then s.raise t (.modeReq a) 0x04 v
      else if v.toNat = i.mode then s.advance t (.modeReq a)
      else s.threadCut t (.modeReq a) 1 v.toNat 0 (some (1000 * i.mcdl))

/-- `mark.inj` (R256). -/
def execMarkInj (a b : BitVec 5) (s : State) : Out :=
  graphIssue (.markInj a b) s fun s t =>
    let u := t.reg a.toNat
    let d := (t.reg b.toNat).toNat
    if u.toNat ≥ 4096 then s.raise t (.markInj a b) 0x06 u
    else if d > 1000000 then s.raise t (.markInj a b) 0x06 (t.reg b.toNat)
    else if (s.inst? t.part t.inst).any fun i => i.pending.any fun c => bit c.purpose 5 then s.raise t (.markInj a b) 0x04 u
    else s.threadCut t (.markInj a b) 32 0 u.toNat (if d = 0 then none else some (1000 * d))

/-- `mark.wait`, at its issue and at each wake (R256): the count is compared unsigned. -/
def markWaitCore (a : BitVec 5) (s : State) (t : Thread) : State :=
  if (s.inst? t.part t.inst).any fun i => decide (i.completed.toNat ≥ (t.reg a.toNat).toNat) then s.advance t (.markWait a)
  else s.waitAt t (.markWait a)

/-- `mark.wait` (R256). -/
def execMarkWait (a : BitVec 5) (s : State) : Out :=
  graphIssue (.markWait a) s fun s t =>
    if !t.worker then s.raiseFree t (.markWait a) 0x04 else markWaitCore a s t

/-! ### Page requests (R241, R242) -/

/-- The page instance of a thread at an index (R241). -/
def State.pageAt (s : State) (t : Thread) (ix : Nat) : Option Page := (s.pagesOf t).find? fun p => decide (p.index = ix)

/-- A page instance becomes wanted under the name of its `page.req`. -/
def State.wantPage (s : State) (t : Thread) (ix : Nat) : State :=
  let name := { t.nameAt t.pc t.seq with acct := t.bill }
  match s.pageAt t ix with
  | some p => s.setPage { p with wanted := true, name, waitSince := if p.region.isSome then p.waitSince else s.dev.elapsed }
  | none =>
    let p : Page := { id := s.pageNext, part := t.part, inst := t.inst, ordinal := t.ordinal, index := ix
                      wanted := true, name, waitSince := s.dev.elapsed }
    { s with pageNext := s.pageNext + 1 }.setPage p

/-- `page.req` (R241). -/
def execPageReq (a : BitVec 5) (s : State) : Out :=
  graphIssue (.pageReq a) s fun s t =>
    let v := t.reg a.toNat
    let npage := match s.inst? t.part t.inst with | some i => i.npage | none => 0
    let regions := match s.inst? t.part t.inst with | some i => (i.actor t.actor).regions | none => 0
    if !(t.region.any fun r => !r.isTask) then s.raise t (.pageReq a) 0x04 v
    else if v.toNat ≥ npage then s.raise t (.pageReq a) 0x06 v
    else if (s.pageAt t v.toNat).any Page.wanted then s.advance t (.pageReq a)
    else if (s.wantedPages t).length ≥ regions then s.raise t (.pageReq a) 0x06 v
    else (s.wantPage t v.toNat).advance t (.pageReq a)

/-- `page.drop` (R242). -/
def execPageDrop (a : BitVec 5) (s : State) : Out :=
  graphIssue (.pageDrop a) s fun s t =>
    let v := t.reg a.toNat
    let npage := match s.inst? t.part t.inst with | some i => i.npage | none => 0
    if v ≠ allOnes ∧ v.toNat ≥ npage then s.raise t (.pageDrop a) 0x06 v
    else
      let sel := (s.pagesOf t).filter fun p => decide (v = allOnes ∨ p.index = v.toNat)
      (sel.foldl (fun s p => s.setPage { p with wanted := false }) s).advance t (.pageDrop a)

/-! ### `rmon.rd` (R240) -/

/-- The code of an instance's state (R234). -/
def InstState.code : InstState → Nat
  | .running => 0 | .cutting => 1 | .stopped => 2 | .quota => 3 | .suspendedRegions => 4 | .suspendedAstore => 5 | .ending => 6

/-- The item that a selector names, none where `rmon.rd` raises SHAPE. -/
def State.monitor (s : State) (t : Thread) (i : Inst) (sel : Nat) : Option Word :=
  let arg := bits sel 8 24
  let x := i.actor t.actor
  let firing := t.region.filter fun r => !r.isTask
  let page := s.pageAt t arg
  if sel ≥ 2 ^ 32 then none
  else
    match sel % 256 with
    | 0 => if arg ≠ 0 then none
      else some (if t.worker then 0
        else word (x.phase % 16 + i.mode % 16 * 16 + (if firing.isSome then 256 else 0) + x.firings % 2 ^ 32 * 2 ^ 32))
    | 1 => if arg ≥ 16 then none
      else some (if t.worker then 0
        else word (((firing.map fun r => r.taken.toArray.getD arg 0).getD 0) % 65536 +
          ((i.declared i.mode t.actor x.phase arg).getD 0xFFFF) * 65536))
    | 2 => if arg ≥ i.npage then none else some (word ((page.map fun p => p.st.flags.toNat).getD 0))
    | 3 => if arg ≠ 0 then none else some (word (i.started.toNat % 2 ^ 32 + i.completed.toNat % 2 ^ 32 * 2 ^ 32))
    | 4 => if arg ≠ 0 then none else some t.lastCut
    | 5 => if arg ≠ 0 then none else some (word (i.state.code + i.mode % 16 * 256 + i.num % 2 ^ 32 * 2 ^ 32))
    | 6 => if arg ≥ i.npage then none
      else some (match page with
        | none => 0
        | some p => word ((if p.wanted then 1 else 0) + (if p.region.isSome then 2 else 0) + p.region.getD 0 % 256 * 256 +
            p.placements % 2 ^ 32 * 2 ^ 32))
    | _ => none

/-- `rmon.rd` (R240). -/
def execRmonRd (d a : BitVec 5) (s : State) : Out :=
  graphIssue (.rmonRd d a) s fun s t =>
    let v := t.reg a.toNat
    match (s.inst? t.part t.inst).bind fun i => s.monitor t i v.toNat with
    | none => s.raise t (.rmonRd d a) 0x06 v
    | some w => s.result t (.rmonRd d a) d w

end Sys2Proof.Machine
end

