-- ==== Sys2Proof/Machine/Queues.lean ====
section
/-! DEFINITION. The queue instructions, major 0x3A (R324 to R329, R333). -/

namespace Sys2Proof.Machine

/-- The issue of a queue instruction, with its QUEUE charge to the issuer (R333). -/
def queueIssue (i : Instr) (s : State) (k : State → Thread → State) : Out :=
  issue i 0 s fun s t => k (s.chargeThread t 0x3A 1) t

/-- A failure of Newt traps the instruction that named the queue (R324, R325). -/
def State.queueTrap (s : State) (t : Thread) (i : Instr) (cause : Nat) (value : Option Nat) : State :=
  match value with
  | some v => s.raise t i cause (word v)
  | none => s.raiseFree t i cause

/-- A worker with no open task meets a cut (R251): it aligns once, after its engine commands; whether it holds. -/
def State.alignWorker (s : State) (t : Thread) : State × Thread × Bool :=
  match (s.inst? t.part t.inst).bind Inst.cut with
  | none => (s, t, false)
  | some c =>
    if !t.worker || t.region.isSome then (s, t, false)
    else if t.aligned then (s, t, c.quiesces)
    else if s.outstanding t then (s, t, true)
    else
      let s1 := (s.setThread t).recordAlign t
      (s1, (s1.thread? t.num).getD t, c.quiesces)

/-! ### `q.claim` (R327) -/

/-- A record is claimed: the task opens as at this `q.claim` (R147), with the record that Newt keeps (R148). -/
def State.openTask (s : State) (t : Thread) (i : Instr) (d : Nat) (qn : Nat) (recd : List Byte) : State :=
  let ws := (List.range 8).map fun k => word (field recd (8 * k) 8 % 2 ^ 64)
  let ws1 := match ws with | w :: r => (w ||| word (2 ^ 63)) :: r | [] => []
  let r : Region := { isTask := true, startPc := t.pc, regs := t.regs, preds := t.preds, spill := t.spill
                      firstCmd := s.nextCmd, queue := qn, record := recd }
  s.advance (({ t.setGroup d ws1 with region := some r } : Thread).acquire s) i

/-- The claim at Newt: the oldest record, or 0 where there is none. A claim reopens its position of an ingest queue
(R331) and makes room for the records that wait for it. -/
def State.claimAt (s s0 : State) (t : Thread) (i : Instr) (d : BitVec 5) (q : NewtQueue) : State :=
  let empty := decide (q.tail = q.head)
  let logged? : Option Word := match s.gate t i 1 with | .hit r => some r.b | _ => none
  if empty && logged?.any (· ≠ allOnes) then s.waitAt t i
  else if empty || logged? = some allOnes then s.event s0 t i 1 q.q allOnes fun s2 _ => s2.result t i d 0
  else
    match s.newtAddr t.part q.q .read (q.pos q.head) 64 with
    | (s1, .error e) => s1.raise t i e.1 (word e.2)
    | (s1, .ok pa) =>
      s1.event s0 t i 1 q.q (word q.head) fun s2 _ =>
        let recd := s2.readBytes pa 64
        let s3 := s2.setQueue { q with head := q.head + 1, closed := q.closed.filter (· ≠ q.head % q.size) }
        let s4 := ((s3.openTask t i d.toNat q.q recd).ingestDue t.part q.q q.size)
        s4.roomMoved t.part q.q (q.requeue.length + 1)

/-- `q.claim` once no task is open; claims wait for READY (R14). -/
def claimNext (d a : BitVec 5) (s0 s : State) (t : Thread) : State :=
  let i := Instr.qClaim d a
  let v := t.reg a.toNat
  let (s1, t1, hold) := s.alignWorker t
  if hold then s1.waitAt t1 i
  else if v = allOnes then s1.result t1 i d 0
  else if !s1.dev.ready then s1.waitAt t1 i
  else
    match s1.mapQueue t.part v.toNat with
    | .wait s2 => s2.waitAt t1 i
    | .bad s2 c x => s2.queueTrap t1 i c x
    | .ok s2 q => if q.mode = 1 then s2.raise t1 i 0x04 v else s2.claimAt s0 t1 i d q

/-- `q.claim`, at its issue and at each wake (R327): an open task ends first. -/
def qClaimCore (d a : BitVec 5) (s0 s : State) (t : Thread) : State :=
  let i := Instr.qClaim d a
  match t.region with
  | none => claimNext d a s0 s t
  | some r =>
    if !r.isTask then s.raise t i 0x04 (t.reg a.toNat)
    else
      match s.deferRoom t.part r.pubs r.pubs with
      | .no s1 => s1.waitAt t i
      | .bad s1 c x => s1.queueTrap t i c x
      | .yes s1 =>
        s1.pubTurn s0 t i r.pubs.length fun s =>
          let (s2, t1) := s.endRegion t r
          claimNext d a (s2.setThread t1) (s2.setThread t1) t1

/-- `q.claim` (R327). -/
def execQClaim (d a : BitVec 5) (s : State) : Out := queueIssue (.qClaim d a) s (qClaimCore d a s)

/-! ### `q.pub` (R328) -/

/-- `q.pub` once its record has been read, at its issue and at each wake: deferred inside a region, else the
thread's stores are published and the record follows when there is room. -/
def qPubCore (a b : BitVec 5) (recd : List Byte) (s0 s : State) (t : Thread) : State :=
  let i := Instr.qPub a b
  let wait (s : State) (t : Thread) : State :=
    s.setThread { t with state := .waiting, waitCount := 0, wait := some { instr := i, data := recd, since := s.dev.time } }
  match s.mapQueue t.part (t.reg a.toNat).toNat with
  | .wait s1 => wait s1 t
  | .bad s1 c x => s1.queueTrap t i c x
  | .ok s1 q =>
    if q.host then s1.raiseFree t i 0x04
    else
      match t.region with
      | some r => s1.advance { t with region := some { r with pubs := r.pubs ++ [(q.q, recd)] } } i
      | none =>
        let (s2, t2) := s1.publishAll t
        if q.tail - q.head ≥ q.size ∨ q.requeue ≠ [] then wait s2 t2
        else
          s2.turn s0 t2 i 2 fun s3 _ =>
            match s3.append q recd { typ := 2, ordinal := t.ordinal, inst := t.inst, pc := t.pc, seq := t.seq } with
            | (s4, some e) => s4.raise t2 i e.1 (word e.2)
            | (s4, none) => s4.advance t2 i

/-- `q.pub` (R328). -/
def execQPub (a b : BitVec 5) (s0 : State) : Out :=
  queueIssue (.qPub a b) s0 fun s t =>
    let va := t.reg b.toNat
    if va.toNat % 64 ≠ 0 then s.raise t (.qPub a b) 0x03 va
    else
      match s.loadGlobal t va.toNat 64 with
      | (s1, .error m) => s1.missed t (.qPub a b) .read m
      | (s1, .ok recd) => qPubCore a b recd s0 s1 t

/-! ### `q.wait` and `q.note` (R329) -/

/-- `q.wait`, at its issue and where it waits for no publication (R329, R251). -/
def qWaitCore (a : BitVec 5) (s : State) (t : Thread) : State :=
  let i := Instr.qWait a
  let (s1, t1, hold) := s.alignWorker t
  if hold then s1.waitAt t1 i
  else
    match s1.mapQueue t.part (t.reg a.toNat).toNat with
    | .wait s2 => s2.waitAt t1 i
    | .bad s2 c x => s2.queueTrap t1 i c x
    | .ok s2 q =>
      if q.mode = 1 then s2.raiseFree t1 i 0x04
      else if q.tail > q.head ∨ q.pend then (s2.setQueue { q with pend := false }).advance t1 i
      else (s2.setQueue { q with waiters := q.waiters ++ [t.num] }).waitAt t1 i

/-- `q.wait` (R329). -/
def execQWait (a : BitVec 5) (s : State) : Out := queueIssue (.qWait a) s (qWaitCore a)

/-- `q.note`, at its issue and while Newt has no slot for the queue (R329). -/
def qNoteCore (a : BitVec 5) (s : State) (t : Thread) : State :=
  match s.mapQueue t.part (t.reg a.toNat).toNat with
  | .wait s1 => s1.waitAt t (.qNote a)
  | .bad s1 c x => s1.queueTrap t (.qNote a) c x
  | .ok s1 q => (s1.notify q).advance t (.qNote a)

/-- `q.note` (R329). -/
def execQNote (a : BitVec 5) (s : State) : Out := queueIssue (.qNote a) s (qNoteCore a)

end Sys2Proof.Machine
end

