-- ==== Sys2Proof/Machine/Launch.lean ====
section
/-! DEFINITION. Launches (R228 to R233) and the end of an instance (R234, R235). -/

namespace Sys2Proof.Machine

/-! ### Reads (R229 step 1) -/

/-- Who launches: the level, the account and the priority, and the die and the island that read and set up. -/
structure Launcher where
  level : Nat
  acct : Nat
  prio : Nat
  die : Nat
  island : Nat
  deriving DecidableEq, Repr

/-- Bytes at any virtual address, line by line, as loads at the point of coherence, charged to the launcher (R260). -/
def State.readSpan (s : State) (part : Nat) (w : Launcher) (va n : Nat) : State × Except (Nat × Nat) (List Byte) :=
  if n = 0 then (s, .ok [])
  else
    let first := va / 64 * 64
    let lines := (va + n - first + 63) / 64
    match s.readVirtual part w.level w.die (some (w.island, w.acct)) lines first with
    | (s1, .error e) => (s1, .error e)
    | (s1, .ok bs) => (s1, .ok ((bs.drop (va - first)).take n))

/-- The charges of writing some bytes for a launch, each line once (R260). -/
def State.chargeSetUp (s : State) (w : Launcher) (cells : List (Nat × Byte)) : State :=
  ((cells.map fun c => c.1 / 64).eraseDups).foldl (fun s l => s.chargeFrom w.island w.acct w.die none (64 * l) 64 false) s

/-- How a launch ends: an instance; a refusal with its code and the address of the offending word; a read that
failed. -/
inductive Launched where
  | ok (s : State) (num : Nat)
  | refused (s : State) (code va : Nat)
  | unread (s : State) (cause va : Nat)

/-- Reads a span and goes on with its bytes. -/
def withSpan (s : State) (part : Nat) (w : Launcher) (va n : Nat) (k : State → List Byte → Launched) : Launched :=
  match s.readSpan part w va n with
  | (s1, .error (c, v)) => .unread s1 c v
  | (s1, .ok bs) => k s1 bs

/-! ### The checks of the block, the image and the template -/

/-- The first offset whose check fails. -/
def firstBad (cs : List (Nat × Bool)) : Option Nat := (cs.find? Prod.snd).map Prod.fst

/-- The launch block (R228, code 2). -/
def blockChecks (b : List Byte) : List (Nat × Bool) :=
  [(0, decide (field b 0 8 / 2 ^ 56 ≠ 0 ∨ field b 0 8 % 4096 ≠ 0)), (0x10, decide (field b 0x10 8 / 2 ^ 56 ≠ 0 ∨ field b 0x10 8 % 8 ≠ 0)),
   (0x18, decide (field b 0x18 8 / 256 ≠ 0))] ++ (List.range 4).map fun k => (0x20 + 8 * k, decide (field b (0x20 + 8 * k) 8 ≠ 0))

/-- Whether the DONE address of a block can be written (R228). -/
def doneOk (b : List Byte) : Bool := decide (field b 0x10 8 / 2 ^ 56 = 0 ∧ field b 0x10 8 % 8 = 0)

/-- The image header (R58), by the offsets of its fields. -/
def imageChecks (h : List Byte) : List (Nat × Bool) :=
  [(0, decide (field h 0 4 ≠ 0x495A5453)), (4, decide (field h 4 2 ≠ 1))] ++
    (List.range 6).map fun k => (16 + 8 * k, decide (field h (16 + 8 * k) 8 ≠ 0))

/-- The offset and size of the first section of a kind. -/
def sectionOf (tab : List Byte) (n kind : Nat) : Option (Nat × Nat) :=
  ((List.range n).find? fun k => decide (field tab (32 * k) 8 = kind)).map fun k => (field tab (32 * k + 8) 8, field tab (32 * k + 16) 8)

/-- A section's entry (R58), by the offsets of its fields: its kind is one of the eight, and its offset meets its alignment,
which for `.pages` is at least 4 KiB. -/
def sectionChecks (e : List Byte) : List (Nat × Bool) :=
  let kind := field e 0 8
  let off := field e 8 8
  let align := field e 24 8
  [(0, decide (kind < 1 ∨ kind > 8)),
   (8, (if align < 64 then decide (off % 2 ^ align ≠ 0) else decide (off ≠ 0)) || decide (kind = 3 ∧ off % 4096 ≠ 0))]

/-- The graph header (R223); `pages` is the size of `.pages`, `size` that of `.graph`. -/
def headerChecks (g : List Byte) (pages size : Nat) : List (Nat × Bool) :=
  let h := field g 0 4
  let nmode := bits h 8 8
  let nact := field g 4 2
  let nring := field g 6 2
  [(0, decide (bits h 0 8 ≠ 1 ∨ nmode = 0 ∨ nmode > 16 ∨ bits h 16 4 ≥ nmode ∨ bits h 22 10 ≠ 0)),
   (4, decide (nact = 0 ∨ nact > 768 ∨ nring > 4095)),
   (8, decide (field g 8 1 > 192 ∨ field g 9 1 ≠ 0 ∨ pages ≠ 4096 * field g 10 2)),
   (12, decide (field g 12 4 = 0 ∨ field g 12 4 > 1000000)),
   (16, decide (field g 16 4 % 32 ≠ 0 ∨ field g 16 4 + 64 * nact > size)),
   (20, decide (field g 20 4 % 32 ≠ 0 ∨ field g 20 4 + 32 * nring > size)),
   (24, decide (field g 24 4 % 32 ≠ 0 ∨ field g 24 4 + 544 * nmode * nact > size)),
   (28, decide (field g 28 4 % 32 ≠ 0))] ++
  (List.range 8).map fun k => (32 + 4 * k, decide (field g (32 + 4 * k) 4 ≠ 0))

/-- An actor entry (R224). -/
def actorChecks (e : List Byte) (nring : Nat) : List (Nat × Bool) :=
  let x := field e 0 4
  [(0, decide (bits x 4 4 ≠ 0 ∨ bits x 24 8 ≠ 0 ∨ bits x 8 8 > 16)), (4, decide (field e 4 4 % 4 ≠ 0)),
   (8, decide (field e 8 4 % 64 ≠ 0 ∨ field e 8 4 ≥ 0x100000)), (12, decide (field e 12 4 % 64 ≠ 0 ∨ field e 12 4 > 0x100000))] ++
  (List.range 16).map (fun h => (0x10 + 2 * h, let v := field e (0x10 + 2 * h) 2
    decide (v ≠ 0xFFFF) && decide (v / 8192 ≠ 0 ∨ v % 4096 ≥ nring))) ++
  [(0x30, if x % 4 = 1 ∨ x % 4 = 2 then decide (field e 0x30 4 % 64 ≠ 0) else decide (field e 0x30 4 ≠ 0))]

/-- A ring entry (R225). -/
def ringChecks (e : List Byte) (nact : Nat) (linkOk : Nat → Bool) : List (Nat × Bool) :=
  let p := field e 0 2
  let c := field e 2 2
  let x := field e 4 4
  [(0, decide ((p ≠ 0xFFFF ∧ p ≥ nact) ∨ (c ≠ 0xFFFF ∧ c ≥ nact))),
   (4, decide (bits x 0 10 < 2 ∨ bits x 10 12 = 0 ∨ bits x 27 5 ≠ 0) || (decide (p = 0xFFFF ∨ c = 0xFFFF) && !(linkOk (bits x 23 4)))),
   (8, decide (field e 8 8 / 2 ^ 60 ≠ 0)), (16, decide (field e 16 8 % 2 ^ 21 ≠ 0 ∨ field e 16 8 / 2 ^ 56 ≠ 0)),
   (24, decide (bits (field e 24 4) 0 12 ≥ bits x 10 12 ∨ bits (field e 24 4) 12 20 ≠ 0)),
   (28, decide (bits (field e 24 4) 0 12 = 0 ∧ field e 28 4 ≠ 0))]

/-- The rate block of an actor (R226): `depth h` is the DEPTH of the ring a handle is bound to. -/
def rateChecks (e : List Byte) (worker : Bool) (depth : Nat → Option Nat) : List (Nat × Bool) :=
  if worker then (List.range 136).map fun k => (4 * k, decide (field e (4 * k) 4 ≠ 0))
  else
    let phases := field e 0 4 % 16 + 1
    (0, decide (field e 0 4 ≥ 16)) :: (List.range 7).map (fun k => (4 + 4 * k, decide (field e (4 + 4 * k) 4 ≠ 0))) ++
    (List.range 256).map fun n =>
      let off := 0x20 + 2 * n
      let c := field e off 2
      (off, if n % 16 ≥ phases then decide (c ≠ 0)
            else match depth (n / 16) with
              | none => decide (c ≠ 0xFFFF)
              | some d => decide (c ≠ 0xFFFF ∧ c > d))

/-- An actor as its entry gives it (R224). -/
def actorOf (e : List Byte) : Actor :=
  let x := field e 0 4
  { kind := bits x 0 2, prio := bits x 2 2, regions := bits x 8 8, tileHint := bits x 16 8, entry := field e 4 4
    alo := field e 8 4, ahi := field e 12 4, hmap := (List.range 16).map fun h => field e (0x10 + 2 * h) 2
    sub := field e 0x30 4, qrep := field e 0x34 4, qmode := word (field e 0x38 8), ended := false }

/-- A ring as its entry gives it (R225). -/
def ringOf (e : List Byte) : Ring :=
  let x := field e 4 4
  let y := field e 8 8
  { prod := field e 0 2, cons := field e 2 2, slot64 := bits x 0 10, depth := bits x 10 12, back := bit x 22, arc := bits x 23 4
    base := bits y 0 20, ccb := bits y 20 20, pcb := bits y 40 20, pvaBase := field e 16 8
    delay := bits (field e 24 4) 0 12, init := field e 28 4 }

/-- The phases and counts of a rate block (R226). -/
def rateOf (e : List Byte) : Nat × List (List Nat) :=
  let phases := field e 0 4 % 16 + 1
  (phases, (List.range 16).map fun h => (List.range phases).map fun f => field e (0x20 + 32 * h + 2 * f) 2)

/-- `n` consecutive entries of a table. -/
def entries (bs : List Byte) (size : Nat) : Nat → List (List Byte)
  | 0 => []
  | n + 1 => bs.take size :: entries (bs.drop size) size n

/-- The first failing entry of a table and the offset in it. -/
def badEntry (size : Nat) (check : List Byte → List (Nat × Bool)) (es : List (List Byte)) : Option Nat :=
  (List.range es.length).findSome? fun k => (firstBad (check (es.getD k []))).map (size * k + ·)

/-! ### Placement (R229 step 3) -/

/-- The footprints that are reserved on a tile. -/
def State.reserved (s : State) (tile : Nat) : List (Nat × Nat) :=
  s.insts.flatMap fun i => (i.actors.filter fun x => decide ((x.kind = 0 ∨ x.kind = 3) ∧ x.tile = tile)).map fun x => (x.alo, x.ahi)

/-- Whether a footprint is free among reserved ones. -/
def footprintFree (rs : List (Nat × Nat)) (lo hi : Nat) : Bool :=
  decide (lo ≥ hi) || rs.all fun r => decide (r.1 ≥ r.2 ∨ hi ≤ r.1 ∨ r.2 ≤ lo)

/-- Places the actors one after another: `taken` are the tiles and footprints of those placed before. -/
def State.placeActors (s : State) (tiles : List Nat) (base : Nat) : List Actor → List (Nat × Nat × Nat) → Option (List Actor)
  | [], _ => some []
  | x :: r, taken =>
    if x.kind = 1 ∨ x.kind = 2 then (s.placeActors tiles base r taken).map (x :: ·)
    else
      let n := tiles.length
      let fits (tl : Nat) : Bool :=
        let free := ((List.range 4).filter fun k => (s.thread? (4 * tl + k)).isNone).length
        let mine := taken.filter fun e => decide (e.1 = tl)
        decide (mine.length < free) && footprintFree (s.reserved tl ++ mine.map Prod.snd) x.alo x.ahi
      match ((List.range n).map fun j => tiles.getD ((base + x.tileHint + j) % n) 0).find? fits with
      | none => none
      | some tl => (s.placeActors tiles base r ((tl, x.alo, x.ahi) :: taken)).map ({ x with tile := tl } :: ·)

/-! ### Set-up (R229 steps 4 to 8) -/

/-- The tile of a thread actor at an end of a ring, if one stands there. -/
def Inst.endTile (i : Inst) (a : Nat) : Option Nat :=
  match i.actors[a]? with
  | some x => if x.kind = 0 ∨ x.kind = 3 then some x.tile else none
  | none => none

/-- The bytes that set a ring up (R229 step 4): control blocks, initial slots, then the counters. -/
def Inst.ringCells (i : Inst) (r : Ring) (init : List Byte) : List (Nat × Byte) :=
  let pt := i.endTile r.prod
  let ct := i.endTile r.cons
  let put (tl : Option Nat) (off : Nat) (bs : List Byte) : List (Nat × Byte) :=
    match tl with | some n => cellsAt (apertureBase n + off) bs | none => []
  put ct r.ccb (zeros 64) ++ put pt r.pcb (zeros 64) ++ put (ct.orElse fun _ => pt) r.base init ++
    (if r.delay = 0 then [] else put pt (r.pcb + 8) (leBytes 8 r.delay) ++ put ct r.ccb (leBytes 8 r.delay))

/-- The initial slots of the rings, read from `.data` (R225). -/
def State.readInits (s : State) (i : Inst) (w : Launcher) : List Ring → State × Except (Nat × Nat) (List (Nat × Byte))
  | [] => (s, .ok [])
  | r :: rest =>
    match s.readSpan i.part w (i.dataVa + r.init) (r.delay * 64 * r.slot64) with
    | (s1, .error e) => (s1, .error e)
    | (s1, .ok bs) =>
      match s1.readInits i w rest with
      | (s2, .error e) => (s2, .error e)
      | (s2, .ok cs) => (s2, .ok (i.ringCells r bs ++ cs))

/-- The handle that HMAP binds (R229 step 5): end 1 is the producer. -/
def Inst.bind (i : Inst) (r : Ring) (e : Nat) : Handle :=
  let own := (i.endTile (if e = 1 then r.prod else r.cons)).getD 0
  let other := if e = 1 then r.cons else r.prod
  let kind := if other = 0xFFFF then 2 else if (i.endTile other).isSome then 0 else 1
  let peer := match kind with | 2 => r.arc | 1 => Config.mseOf other own % 16 | _ => (i.endTile other).getD 0
  let lrcb := if e = 1 then r.pcb else r.ccb
  let prcb := if kind ≠ 0 then 0 else if e = 1 then r.ccb else r.pcb
  { bound := true
    d0 := word (r.base + lrcb * 2 ^ 20 + prcb * 2 ^ 40 + e * 2 ^ 60)
    d1 := word (r.slot64 + r.depth * 2 ^ 10 + peer * 2 ^ 22 + kind * 2 ^ 30)
    d3 := if e = 1 ∧ kind = 0 ∧ r.pvaBase ≠ 0 then word (r.pvaBase + 2 ^ 21 * peer) else 0
    l := if e = 1 then word r.delay else 0 }

/-- The handles of an actor. -/
def Inst.handles (i : Inst) (a : Nat) : Vector Handle 16 :=
  Vector.ofFn fun h => match i.ringOf a h.val with | some (_, r, e) => i.bind r e | none => {}

/-- A thread of a launched instance (R230). -/
def Inst.newThread (i : Inst) (a : Nat) (x : Actor) (slot prio : Nat) : Thread :=
  { ((({ num := slot } : Thread).setReg 1 (word i.num)).setReg 2 i.args).setReg 3 (word a) with
    pc := word (i.textVa + x.entry), sw := swOf i.level 0 (min x.prio prio) i.acct, part := i.part, inst := i.num
    actor := a, worker := decide (x.kind = 3), ordinal := a, maxLevel := i.level, handles := i.handles a }

/-- Creates the threads of the actors in order, each in the lowest Free slot of its tile. -/
def State.createThreads (s : State) (i : Inst) (prio : Nat) : State :=
  (List.range i.actors.length).foldl (fun s a =>
    let x := i.actors.getD a {}
    if x.kind = 1 ∨ x.kind = 2 then s
    else match s.freeSlot x.tile with
      | some n => s.setThread (i.newThread a x n prio)
      | none => s) s

/-- Whether a window of `.kywin` agrees with the radix table (R145): every base page is present and pinned, grants
its permissions and maps where the window says. -/
def State.windowOk (s : State) (part : Nat) (w : List Byte) : Bool :=
  let vbase := field w 0 8
  let len := field w 8 8
  let pbase := field w 16 8
  let perm := field w 24 8
  decide (vbase / 2 ^ 56 = 0 ∧ vbase % 65536 = 0 ∧ len / 2 ^ 40 = 0 ∧ len % 65536 = 0 ∧ pbase / 2 ^ 52 = 0 ∧ pbase % 65536 = 0 ∧ perm < 4) &&
  (List.range (len / 65536)).all fun k =>
    let va := vbase + 65536 * k
    match s.walk part va with
    | .error _ => false
    | .ok (pte, lvl) =>
      bit pte 7 && (!(bit perm 0) || bit pte 2) && (!(bit perm 1) || bit pte 3) && decide (va / 2 ^ 56 = 0) &&
        decide (bits pte 0 52 / 2 ^ pageBits lvl * 2 ^ pageBits lvl + va % 2 ^ pageBits lvl = pbase + 65536 * k)

/-- An actor or a ring that a launch binds to an arc: the link is the partition's, and no other instance holds the
pair (R376). -/
def State.arcFree (s : State) (part link ix : Nat) : Bool :=
  decide (link < 12) && bit (s.part part).links link &&
    s.insts.all fun i => match i.rings[ix]? with
      | some r => decide ((r.prod ≠ 0xFFFF ∧ r.cons ≠ 0xFFFF) ∨ r.arc ≠ link)
      | none => true

/-! ### MSE actors (R229 step 7, R321) -/

/-- How the start of a SUB record's subscription fails: the record is refused, or cannot be read. -/
inductive SubFailed where
  | refused (va : Nat)
  | unread (va : Nat)
  deriving DecidableEq, Repr

/-- An MSE actor whose ring nothing serves has ended. -/
def State.actorEnded (s : State) (i : Inst) (a : Nat) : State :=
  match s.inst? i.part i.num with
  | some j => s.setInst { j with actors := j.actors.mapIdx fun k y => if k = a then { y with ended := true } else y }
  | none => s

/-- The subscription of an MSE actor starts from its SUB record, at the tile end of its ring. A record that fails the checks
of R317 or R320, or whose ring has a subscription already (R316), fails the launch. -/
def State.startActor (s : State) (i : Inst) (w : Launcher) (a : Nat) : Except SubFailed State :=
  let x := i.actor a
  let name : Name := { part := i.part, inst := i.num, actor := a, acct := i.acct }
  match (List.range 16).findSome? fun h => (i.ringOf a h).map fun r => (h, r) with
  | none => .ok (s.actorEnded i a)
  | some (h, ix, r, e) =>
    let o := if e = 1 then r.cons else r.prod
    match s.actorThread i.part i.num o with
    | none => .ok (s.actorEnded i a)
    | some t =>
      match (List.range 16).find? fun k => (i.ringOf o k).any fun q => decide (q.1 = ix ∧ q.2.2 = 1 - e) with
      | none => .ok (s.actorEnded i a)
      | some k =>
        let hd := t.handle k
        let va := i.dataVa + x.sub
        match s.readSpan i.part w va 128 with
        | (_, .error _) => .error (.unread va)
        | (s1, .ok bs) =>
          if hd.role ≠ subDir bs || s1.ringBusy t.tile hd bs || (s1.subBad hd bs).isSome then .error (.refused va)
          else
            let u := s1.newSub name i.level none a o h t.tile hd bs 0 none none 0 false
            .ok { s1 with subs := s1.subs ++ [u], nextCmd := s1.nextCmd + 1 }

/-- The MSE actors of a launched instance start in order. -/
def State.startActors (s : State) (i : Inst) (w : Launcher) : List Nat → Except SubFailed State
  | [] => .ok s
  | a :: r =>
    if (i.actors.getD a {}).kind = 1 ∨ (i.actors.getD a {}).kind = 2 then
      match s.startActor i w a with
      | .error f => .error f
      | .ok s1 => s1.startActors i w r
    else s.startActors i w r

/-- An instance's threads exist: it runs, or waits in QUOTA (R344) or SUSPENDED_REGIONS (R229 step 8). -/
def State.startInst (s : State) (i : Inst) : State :=
  let held : Option InstState := if s.exhausted i.acct then some .quota
    else if i.rmin > (s.part i.part).tiles.length then some .suspendedRegions else none
  match held, s.inst? i.part i.num with
  | some st, some j =>
    let s1 := s.setInst { j with state := st, stoppedSince := s.dev.elapsed }
    { s1 with threads := s1.threads.map fun (e : Nat × Thread) =>
        if e.2.part = i.part ∧ e.2.inst = i.num then (e.1, { e.2 with state := .stopped }) else e }
  | _, _ => s

/-- The number of a launch: the partition's counter (R229 step 2), or under a replay the one that the log has for a queue's
launch (R404). -/
def State.launchNum (s : State) (part : Nat) (logged : Option Nat) : Nat :=
  (logged.filter fun n => decide (n ≠ 0)).getD (s.part part).instNext

/-- The instance, its memory and its threads, once every check has passed (R229 steps 2, 4, 5 and 8). -/
def State.create (s : State) (i : Inst) (w : Launcher) (who : Option (Nat × Nat × Nat)) (cells : List (Nat × Byte)) : State :=
  let p := s.part i.part
  let next := if (i.num + 1) % 2 ^ 32 = 0 then 1 else (i.num + 1) % 2 ^ 32
  let s1 := (s.chargeSetUp w cells).setPart i.part { p with instNext := next }
  (({ s1 with insts := s1.insts ++ [i], pubBy := who } : State).publish cells).createThreads i w.prio

/-- The last steps of a launch (R229 steps 2 and 4 to 8), from an instance whose actors are placed. Where the SUB record of an
MSE actor fails, nothing of it stands: it is refused with code 4, as a breach of the template (DESIGN CHOICE, log 132: R228
gives that failure no code). -/
def State.setUp (s : State) (i0 : Inst) (w : Launcher) (who : Option (Nat × Nat × Nat)) (logged : Option Nat := none) : Launched :=
  match s.readInits i0 w i0.rings with
  | (s1, .error (c, v)) => .unread s1 c v
  | (s1, .ok cells) =>
    match s1.readSpan i0.part w i0.kywinVa (i0.kywinSize / 32 * 32) with
    | (s2, .error (c, v)) => .unread s2 c v
    | (s2, .ok ws) =>
      match (List.range (i0.kywinSize / 32)).find? fun k => !(s2.windowOk i0.part ((ws.drop (32 * k)).take 32)) with
      | some k => .refused s2 5 (i0.kywinVa + 32 * k)
      | none =>
        let i := { i0 with num := s2.launchNum i0.part logged, launchSeq := s2.steps }
        match (s2.create i w who cells).startActors i w (List.range i.actors.length) with
        | .ok s3 => .ok (s3.startInst i) i.num
        | .error (.refused va) => .refused s2 4 va
        | .error (.unread va) => (match s2.readSpan i.part w va 128 with
          | (s4, .error (c, v)) => .unread s4 c v
          | (s4, .ok _) => .refused s4 4 va)

/-- A launch (R229): the block, its address, who launches, and the tile base that replaces the block's. -/
def State.launch (s : State) (part : Nat) (b : List Byte) (va : Nat) (w : Launcher) (base : Option Nat)
    (who : Option (Nat × Nat × Nat)) (logged : Option Nat := none) : Launched :=
  match firstBad (blockChecks b) with
  | some off => .refused s 2 (va + off)
  | none =>
    let img := field b 0 8
    withSpan s part w img 64 fun s h =>
      match firstBad (imageChecks h) with
      | some off => .refused s 3 (img + off)
      | none =>
        let n := field h 6 2
        let toff := field h 8 8
        withSpan s part w (img + toff) (32 * n) fun s tab =>
          let sec (k : Nat) : Nat × Nat := (sectionOf tab n k).getD (0, 0)
          match badEntry 32 sectionChecks (entries tab 32 n) with
          | some off => .refused s 3 (img + toff + off)
          | none =>
            match sectionOf tab n 5 with
            -- No word offends where there is no `.graph`: the image is named (DESIGN CHOICE, log 131).
            | none => .refused s 3 img
            | some (goff, gsize) =>
              let g := img + goff
              withSpan s part w g 64 fun s hd =>
                match firstBad (headerChecks hd (sec 3).2 gsize) with
                | some off => .refused s 4 (g + off)
                | none =>
                  let nact := field hd 4 2
                  let nring := field hd 6 2
                  let nmode := field hd 1 1
                  withSpan s part w (g + field hd 16 4) (64 * nact) fun s ab =>
                    withSpan s part w (g + field hd 20 4) (32 * nring) fun s rb =>
                      withSpan s part w (g + field hd 24 4) (544 * nmode * nact) fun s tb =>
                        let aes := entries ab 64 nact
                        let res := entries rb 32 nring
                        let tes := entries tb 544 (nmode * nact)
                        let actors := aes.map actorOf
                        let rings := res.map ringOf
                        let badRing := (List.range nring).findSome? fun k =>
                          (firstBad (ringChecks (res.getD k []) nact fun l => s.arcFree part l k)).map (32 * k + ·)
                        let depth (a h : Nat) : Option Nat :=
                          let v := (actors.getD a {}).hmap.getD h 0xFFFF
                          if v = 0xFFFF then none else some (rings.getD (v % 4096) {}).depth
                        let badRate := (List.range (nmode * nact)).findSome? fun k =>
                          (firstBad (rateChecks (tes.getD k []) (decide ((actors.getD (k % nact) {}).kind = 3)) (depth (k % nact)))).map (544 * k + ·)
                        match badEntry 64 (actorChecks · nring) aes, badRing, badRate with
                        | some o, _, _ => .refused s 4 (g + field hd 16 4 + o)
                        | none, some o, _ => .refused s 4 (g + field hd 20 4 + o)
                        | none, none, some o => .refused s 4 (g + field hd 24 4 + o)
                        | none, none, none =>
                          match s.placeActors (s.part part).tiles (base.getD (field b 0x18 1)) actors [] with
                          | none => .refused s 1 0
                          | some placed =>
                            s.setUp { part, num := 0, args := word (field b 8 8), doneVa := field b 0x10 8, level := w.level, acct := w.acct
                                      prio := bits (field hd 0 4) 20 2, textVa := img + (sec 1).1, dataVa := img + (sec 2).1
                                      pagesVa := img + (sec 3).1, kywinVa := img + (sec 4).1, kywinSize := (sec 4).2
                                      npage := field hd 10 2, nmode, initMode := bits (field hd 0 4) 16 4, rmin := field hd 8 1
                                      mcdl := field hd 12 4, actors := placed, rings, rates := tes.map rateOf
                                      mode := bits (field hd 0 4) 16 4
                                      base := base.getD (field b 0x18 1) } w who logged

/-! ### The completion word (R228) -/

/-- A completion word is written with the level and account of an instance; a failure is a KIND 2 record of a write, and an
uncorrectable error is recorded too (R363, R378). -/
def State.doneWord (s : State) (part va level acct die value num : Nat) : State :=
  if va = 0 then s
  else
    let fail (s : State) (c : Nat) : State :=
      (s.addRecord part { cause := c, kind := 2, access := 1, value := word va
                          name := { part, inst := num, acct, ordinal := 0, actor := 0xFFFF } }).1
    match s.translate die part level true .write va 8 with
    | (s1, .error (.absent _)) => fail s1 0x22
    | (s1, .error (.cause c _)) => fail s1 c
    | (s1, .ok pa) => if s1.bad pa 8 then fail (s1.memUe pa 1) 0x90 else s1.publish (cellsAt pa (leBytes 8 value))

/-! ### `gr.launch` (R232) -/

/-- The cause of a refused `gr.launch`. -/
def refusalCause (code : Nat) : Nat := match code with | 3 => 0x04 | 5 => 0x21 | _ => 0x06

/-- `gr.launch` with its block: a thread waits at it until the part is READY (R14). -/
def grLaunchCore (d a b : BitVec 5) (recd : List Byte) (s : State) (t : Thread) : State :=
  let i := Instr.grLaunch d a b
  if !s.dev.ready then
    s.setThread { t with state := .waiting, waitCount := 0, wait := some { instr := i, data := recd, since := s.dev.time } }
  else
    let tb := (t.reg b.toNat).toNat
    match s.launch t.part recd (t.reg a.toNat).toNat ⟨t.level, t.acct, t.prio, dieOf t.tile, s.islandOf t.tile⟩
        (if tb = 0 then none else some tb) s.pubBy with
    | .unread s1 c v => s1.missed t i .read (if c = 0x22 then .absent v else .cause c v)
    | .refused s1 1 _ =>
      let s2 := s1.doneWord t.part (field recd 0x10 8) t.level t.acct (dieOf t.tile) (2 ^ 32) 0
      s2.advance ((t.setReg d.toNat 0).acquire s2) i
    | .refused s1 code va => s1.raise t i (refusalCause code) (word va)
    | .ok s1 num => s1.advance ((t.setReg d.toNat (word num)).acquire s1) i

/-- `gr.launch` (R232). -/
def execGrLaunch (d a b : BitVec 5) (s : State) : Out :=
  graphIssue (.grLaunch d a b) s fun s t =>
    let v := t.reg a.toNat
    if t.region.isSome then s.raise t (.grLaunch d a b) 0x04 v
    else if v.toNat % 64 ≠ 0 then s.raise t (.grLaunch d a b) 0x03 v
    else if (t.reg b.toNat).toNat ≥ 256 then s.raise t (.grLaunch d a b) 0x06 (t.reg b.toNat)
    else
      match s.loadGlobal t v.toNat 64 with
      | (s1, .error m) => s1.missed t (.grLaunch d a b) .read m
      | (s1, .ok recd) => grLaunchCore d a b recd s1 t

/-! ### A queue launch (R233) -/

/-- Newt performs one record of a launch queue. The sequence word of a host-fed record is no part of the block
(R330). -/
def State.queueLaunch (s : State) (q : NewtQueue) : State :=
  let die := s.newtDie q.part q.q
  let level := (s.func q.owner).level
  let took (s : State) : State :=
    let s1 := (s.setQueue { q with head := q.head + 1 }).chargeOwner q
    s1.roomMoved q.part q.q (q.requeue.length + 1)
  let logged := (s.replayed? q.part).filter fun r => decide (r.typ = 9 ∧ r.a = q.q)
  let log (s : State) (num : Nat) : State :=
    let s1 := if logged.isSome then s.popReplay q.part else s
    s1.logEvent q.part { typ := 9, a := q.q, b := word num }
  match s.newtAddr q.part q.q .read (q.pos q.head) 64 with
  | (s1, .error e) => (log (took s1) 0).newtError q.part e
  | (s1, .ok pa) =>
    let raw := s1.readBytes pa 64
    let b := if q.host then raw.take 56 ++ zeros 4 ++ raw.drop 60 else raw
    let done := field b 0x10 8
    let refuse (s : State) (code : Nat) : State := s.doneWord q.part done level q.owner die (code * 2 ^ 32) 0
    let note (s : State) (c v : Nat) : State :=
      (s.addRecord q.part { cause := c, kind := 2, value := word v, name := { part := q.part, acct := q.owner, ordinal := 0 } }).1
    match (took s1).launch q.part b (q.pos q.head) ⟨level, q.owner, q.prio, die, newtIsland die⟩ none none
        (logged.map fun r => r.b.toNat) with
    | .ok s2 num => log s2 num
    | .unread s2 c v => note (refuse (log s2 0) 3) c v
    | .refused s2 code _ => if doneOk b then refuse (log s2 0) code else note (log s2 0) 0x06 done

/-- QUEUE_LAUNCH (R233): once the part is READY, Newt takes the oldest record of a mapped launch queue. -/
def execQueueLaunch (part q : Nat) (s : State) : Out :=
  match s.queue? part q with
  | none => .next s
  | some x =>
    let turn : Bool := match (s.part part).replay with
      | [] => true
      | r :: _ => decide (r.typ = 9 ∧ r.a = q)
    .next (if x.mode ≠ 1 ∨ x.head = x.tail ∨ !s.dev.ready ∨ !turn then s else s.queueLaunch x)

/-! ### The end of an instance (R234, R235) -/

/-- INSTANCE_END (R234): threads gone and subscriptions drained, the footprints and the number are released and the
completion word is written last. -/
def execInstanceEnd (part inst : Nat) (s : State) : Out :=
  match s.inst? part inst with
  | none => .next s
  | some i =>
    let draining := s.subs.any fun u => decide (u.name.part = part ∧ u.name.inst = inst)
    if i.state ≠ .ending ∨ draining ∨ !(s.threadsOf part inst).isEmpty then .next s
    else
      let s1 := (s.evictAll part inst fun _ => false)
      let s2 : State := { s1 with
        pages := s1.pages.filter fun e => ¬ (e.2.part = part ∧ e.2.inst = inst)
        insts := s1.insts.filter fun j => ¬ (j.part = part ∧ j.num = inst) }
      .next (s2.doneWord part i.doneVa i.level i.acct 0 (i.endCode * 2 ^ 32 + inst) inst)

/-- A thread ends with its instance: its region is aborted without a record, its stores are published. -/
def State.endThread (s : State) (t : Thread) : State :=
  let (s1, t1) := if t.region.isSome then s.abortRegion t else (s.withdraw t).publishAll t
  (s1.retire t1).barTest t.tile

/-- CMD 2: the instance ends with code 6 (R235); what its threads' engines have accepted is done first. -/
def State.instEnd (s : State) (part inst : Nat) : State :=
  let s1 := (s.threadsOf part inst).foldl (fun s t =>
    if t.region.isSome then let (s1, t1) := s.abortRegion t; s1.setThread t1 else s) s
  let s2 := s1.finishCommands part inst
  let s3 := (s2.threadsOf part inst).foldl State.endThread s2
  match s3.inst? part inst with
  | none => s3
  | some i =>
    let s4 := s3.setInst { i with state := .ending, endCode := 6, cut := none, pending := none, goOn := none, saved := []
                                  actors := i.actors.map fun x => { x with ended := true } }
    (s4.subs.filter fun u => decide (u.name.part = part ∧ u.name.inst = inst)).foldl State.stopSub s4

/-- INSTCTL_END (R235). -/
def execInstctlEnd (part inst : Nat) (s : State) : Out :=
  .next (if (s.inst? part inst).isSome then s.instEnd part inst else s)

end Sys2Proof.Machine
end

