-- ==== Sys2Proof/Machine/Homes.lean ====
section
/-! DEFINITION. The tiles of threads: moves of a resize or a restore (R257, R258), and the device scheduler (R247). -/

namespace Sys2Proof.Machine

/-! ### What a thread needs of a tile (R257 step 1) -/

/-- Whether two ranges [lo, hi) share a byte. -/
def rangesMeet (a b : Nat × Nat) : Bool := decide (a.1 < b.2 ∧ b.1 < a.2 ∧ a.1 < a.2 ∧ b.1 < b.2)

/-- The spill range and the matrix columns of a thread, in its C-store (R138, R271, R272). -/
def Thread.cRanges (t : Thread) : List (Nat × Nat) :=
  [(wbits t.spill 18 18, wbits t.spill 36 18), (mxBase t.mxTcfg * 512, (mxBase t.mxTcfg + mxCount t.mxTcfg) * 512)]

/-- Whether the Skink resources of two threads overlap (R287). -/
def skinkMeet (a b : Word) : Bool :=
  (List.range 16).any (fun n => skBank a n && skBank b n) || (List.range 4).any (fun n => skTree a n && skTree b n) ||
    (List.range 64).any fun n => skShape a n && skShape b n

/-- The threads at home on a tile. -/
def State.threadsOn (s : State) (tile : Nat) : List Thread := (s.threads.map Prod.snd).filter fun t => decide (t.tile = tile)

/-- Whether a macro of a tile is held by an instance other than the given one (R257): its owner lives, or a thread at
home there has it saved. -/
def State.macroHeld (s : State) (tile k : Nat) (part inst : Nat) : Bool :=
  let m := if k = 0 then (s.tile tile).macro0 else (s.tile tile).macro1
  (m.owner.any fun o => decide (¬ (o.1 = part ∧ o.2.1 = inst))) ||
    (s.threadsOn tile).any fun t => decide (¬ (t.part = part ∧ t.inst = inst)) &&
      match s.inst? t.part t.inst with
      | some j => j.saved.any fun e => decide (e.ordinal = t.ordinal) && e.macros.any fun x => decide (x.1 = k)
      | none => false

/-- Whether a thread carries its actor's footprint (R257): the thread of the lowest ordinal that the actor has left. The other
threads of the actor stand on that thread's tile. -/
def State.carries (s : State) (t : Thread) : Bool :=
  (s.threadsOf t.part t.inst).all fun u => decide (u.actor ≠ t.actor ∨ t.ordinal ≤ u.ordinal)

/-- Whether a tile qualifies for a thread that has no home (R257 step 1). -/
def State.fits (s : State) (i : Inst) (t : Thread) (tile : Nat) : Bool :=
  let x := i.actors.getD t.actor {}
  let live := s.threadsOn tile
  (s.freeSlot tile).isSome &&
    (!(s.carries t) || footprintFree (s.reserved tile) x.alo x.ahi) &&
    live.all (fun u => u.cRanges.all fun r => t.cRanges.all fun q => !(rangesMeet r q)) &&
    live.all (fun u => !(skinkMeet u.skTcfg t.skTcfg)) &&
    match i.saved.find? fun e => decide (e.ordinal = t.ordinal) with
    | some e => e.macros.all fun m => !(s.macroHeld tile m.1 i.part i.num)
    | none => true

/-- The tile a thread without a home takes, as R229 step 3 tries them; the others of an actor go where its footprint is. -/
def State.tileFor (s : State) (i : Inst) (t : Thread) : Option Nat :=
  let tiles := (s.part i.part).tiles
  let x := i.actors.getD t.actor {}
  let n := tiles.length
  let main := if s.carries t then none
    else (s.threadsOf i.part i.num).find? fun u => decide (u.actor = t.actor) && s.carries u
  let tries : List Nat := match main with
    | some m => [m.tile]
    | none => (List.range n).map fun j => tiles.getD ((i.base + x.tileHint + j) % n) 0
  tries.find? (s.fits i t)

/-! ### A thread gives up its tile and takes another -/

/-- Thread numbers from 768 up stand for threads without a home. -/
def Thread.homeless (t : Thread) : Bool := decide (t.num ≥ 768)

/-- A number for one more thread without a home. -/
def State.homelessNum (s : State) : Nat :=
  ((List.range (s.threads.length + 1)).map (768 + ·)).find? (fun n => (s.thread? n).isNone) |>.getD 768

/-- What a thread without a home keeps of its tile, by aperture offset: the footprint that it carries and its spill range. -/
def State.storeOf (s : State) (t : Thread) (x : Actor) (tile : Nat) : List (Nat × Byte) :=
  let lo := wbits t.spill 18 18
  let hi := wbits t.spill 36 18
  (if s.carries t then (s.cellsIn (apertureBase tile + x.alo) (x.ahi - x.alo)).map (fun c => (x.alo + c.1, c.2)) else []) ++
    (s.cellsIn (apertureBase tile + cStoreOff + lo) (hi - lo)).map fun c => (cStoreOff + lo + c.1, c.2)

/-- The descriptors of a footprint's lines, by line of the A-store: they move with the bytes (R61, R82). -/
def State.storeDescs (s : State) (x : Actor) (tile : Nat) : List (Nat × BitVec 16) :=
  (s.descsIn (apertureBase tile + x.alo) (x.ahi - x.alo)).map fun d => (x.alo / 64 + d.1, d.2)

/-- A Stopped thread gives up its tile: its stores are kept with its saved engine state. It leaves the old tile's barrier as
a thread that exits does, and the completion test is not made again for that (DESIGN CHOICE, log 111: R111 names no such
leaving). -/
def State.unhome (s : State) (t : Thread) : State :=
  match s.inst? t.part t.inst with
  | none => s
  | some i =>
    let e0 := (i.saved.find? fun e => decide (e.ordinal = t.ordinal)).getD (s.saveEngine t)
    let x := i.actors.getD t.actor {}
    let e := { e0 with store := s.storeOf t x t.tile, descs := if s.carries t then s.storeDescs x t.tile else [], tile := t.tile }
    let actors := if s.carries t then i.actors.mapIdx fun k x => if k = t.actor then { x with tile := 999 } else x else i.actors
    let i1 := { i with saved := e :: i.saved.filter fun e => decide (e.ordinal ≠ t.ordinal), actors }
    let s1 := s.retire t
    (s1.setInst i1).renumber t s1.homelessNum

/-- A thread without a home takes a slot of a tile; its kept stores are written there. -/
def State.takeHome (s : State) (i : Inst) (t : Thread) (tile : Nat) : State :=
  match s.freeSlot tile with
  | none => s
  | some n =>
    let x := i.actors.getD t.actor {}
    let e := (i.saved.find? fun e => decide (e.ordinal = t.ordinal)).getD { ordinal := t.ordinal }
    let lo := wbits t.spill 18 18
    let hi := wbits t.spill 36 18
    let s1 := if !(s.carries t) then s else (s.putCells (apertureBase tile + x.alo) (x.ahi - x.alo)
        ((e.store.filter fun c => decide (x.alo ≤ c.1 ∧ c.1 < x.ahi)).map fun c => (c.1 - x.alo, c.2))
        (e.descs.map fun d => (d.1 - x.alo / 64, d.2)))
    let s2 := s1.putCells (apertureBase tile + cStoreOff + lo) (hi - lo)
        ((e.store.filter fun c => decide (cStoreOff + lo ≤ c.1 ∧ c.1 < cStoreOff + hi)).map fun c => (c.1 - cStoreOff - lo, c.2))
    let i1 := if s.carries t then { i with actors := i.actors.mapIdx fun k a => if k = t.actor then { a with tile } else a } else i
    (s2.setInst i1).renumber t n

/-- A footprint that has moved: the old tile, the footprint, the new tile. -/
structure Move where
  old : Nat
  lo : Nat
  hi : Nat
  new : Nat

/-- Where a peer control block on a tile stands after some moves (R257 step 2). -/
def movedTile (ms : List Move) (tile cb : Nat) : Nat :=
  match ms.find? fun m => decide (m.old = tile ∧ m.lo ≤ cb ∧ cb < m.hi) with
  | some m => m.new
  | none => tile

/-- A handle whose peers have moved: PEER, the replicate tiles, and the PVA with the peer (R189, R257). -/
def Handle.follow (h : Handle) (ms : List Move) : Handle :=
  if !h.bound || decide (h.peerKind ≠ 0) then h
  else
    let peer := movedTile ms h.peer h.prcb
    let reps := (List.range h.nrep).foldl (fun v k => v + movedTile ms (h.repTile (k + 1)) h.prcb % 256 * 2 ^ (8 * k)) 0
    { h with
      d1 := word (h.d1.toNat - h.peer * 2 ^ 22 + peer % 256 * 2 ^ 22)
      d2 := if h.nrep = 0 then h.d2 else word (h.d2.toNat / 2 ^ (8 * h.nrep) * 2 ^ (8 * h.nrep) + reps)
      d3 := if h.pva = 0 then h.d3 else h.d3 + word (0x200000 * peer) - word (0x200000 * h.peer) }

/-- A subscription whose tile end or extra destinations have moved (R257, R317). -/
def Sub.follow (u : Sub) (ms : List Move) : Sub :=
  { u with
    tile := movedTile ms u.tile u.desc.lrcb
    desc := u.desc.follow ms
    record := (List.range (subDests u.record)).foldl (fun r k =>
      let d := subDest r (k + 1)
      r.set (8 * (k + 1)) (BitVec.ofNat 8 (movedTile ms d.1 d.2.2))) u.record }

/-- Every handle and subscription of a partition that names a moved footprint follows it (R257 step 2). -/
def State.follow (s : State) (part : Nat) (ms : List Move) : State :=
  { s with
    threads := s.threads.map fun (e : Nat × Thread) =>
      if e.2.part = part then (e.1, { e.2 with handles := e.2.handles.map fun h => h.follow ms }) else e
    subs := s.subs.map fun (u : Sub) => if u.name.part = part then u.follow ms else u }

/-- The threads of an instance without a home, by ordinal. -/
def State.homelessOf (s : State) (part inst : Nat) : List Thread :=
  ((s.threadsOf part inst).filter Thread.homeless).insertionSort fun a b => a.ordinal ≤ b.ordinal

/-- Homes for some threads of an instance, one after another, with the moves made. -/
def State.rehomeAll (s : State) (part inst : Nat) : List Thread → List Move → Option (State × List Move)
  | [], ms => some (s, ms)
  | t :: r, ms =>
    match s.inst? part inst with
    | none => none
    | some i =>
      match s.tileFor i t with
      | none => none
      | some tile =>
        let x := i.actors.getD t.actor {}
        let old := ((i.saved.find? fun e => decide (e.ordinal = t.ordinal)).map SavedEngine.tile).getD 0
        (s.takeHome i t tile).rehomeAll part inst r (if s.carries t then ⟨old, x.alo, x.ahi, tile⟩ :: ms else ms)

/-- Every thread of an instance that has no home takes one, if each finds one. -/
def State.rehome (s : State) (part inst : Nat) : Option State :=
  (s.rehomeAll part inst (s.homelessOf part inst) []).map fun r => if r.2.isEmpty then r.1 else r.1.follow part r.2

/-- An instance runs on, with homes for its threads: else it is SUSPENDED_ASTORE (R257 steps 4 and 5). -/
def State.runHomed (s : State) (part inst : Nat) : State :=
  match s.rehome part inst with
  | some s1 => s1.runInst part inst
  | none => match s.inst? part inst with
    | some i => s.setInst { i with state := .suspendedAstore, resizeWait := false }
    | none => s

/-! ### The restore of one thread (R367), and `TC_XDONE` (R364, R148) -/

/-- A thread that its record restores takes a tile and a slot as R229 step 3 chooses them under R257 step 1 (R367); what it
has on its old tile moves with it. A thread whose actor has other threads stays on the tile of the footprint that they share,
and one that belongs to no instance on its own (log 110). -/
def State.restoreHomed (s : State) (t0 : Thread) : State :=
  let stay := s.restoreThread t0
  let t := t0.edited
  if (s.contextBad? t0).isSome || (s.threadsOf t.part t.inst).any fun u => decide (u.actor = t.actor ∧ u.ordinal ≠ t.ordinal) then stay
  else
    let s1 := (s.setThread t).unhome t
    let mine (s : State) : Option Thread := (s.threadsOf t.part t.inst).find? fun u => decide (u.ordinal = t.ordinal)
    match s1.inst? t.part t.inst, mine s1 with
    | some i, some u =>
      match s1.tileFor i u with
      | none => stay
      | some tile =>
        if tile = t.tile then stay
        else
          let x := i.actors.getD t.actor {}
          let s2 := (s1.takeHome i u tile).follow t.part [⟨t.tile, x.alo, x.ahi, tile⟩]
          match s2.inst? t.part t.inst, mine s2 with
          | some j, some v =>
            let s3 := match j.saved.find? fun e => decide (e.ordinal = t.ordinal) with | some e => s2.loadEngine v e | none => s2
            (s3.setInst { j with saved := j.saved.filter fun e => decide (e.ordinal ≠ t.ordinal) }).restoreThread v
          | _, _ => stay
    | _, _ => stay

/-- A write of a record's identifier to `TC_XDONE` (R364): a region is requeued, a stopped thread restored. A
thread whose instance is stopped waits for the instance. -/
def State.xdone (s : State) (part id : Nat) : State :=
  let p := s.part part
  match (p.owed.find? fun e => decide (e.1 = id)).map Prod.snd with
  | none => s
  | some o =>
    let s1 := s.setPart part { p with owed := p.owed.filter fun e => decide (e.1 ≠ id) }
    let num := match o with | .region n _ => n | .thread n => n
    match s1.thread? num with
    | none => s1
    | some t =>
      if t.recordId ≠ id then s1
      else
        let t1 := match o with
          | .region _ task => { t with recordId := 0, task := task }
          | .thread _ => { t with recordId := 0 }
        let runs : Bool := match s1.inst? t.part t.inst with | some i => decide (i.state = .running ∨ i.state = .cutting) | none => true
        if runs then s1.restoreHomed t1 else s1.setThread t1

/-- XDONE (R364). -/
def execXdone (part id : Nat) (s : State) : Out := .next (s.xdone part id)

/-! ### `MK_INSTCTL` CMD 1 (R235) -/

/-- CMD 1: a STOPPED instance resumes, with homes for the threads whose tiles the scheduler took. -/
def State.instResume (s : State) (part inst : Nat) : State :=
  match s.inst? part inst with
  | none => s
  | some i => if i.state = .stopped ∧ i.resizeWait = false then (if s.instExhausted i then s.runInst part inst else s.runHomed part inst) else s

/-- INSTCTL_RESUME (R235). -/
def execInstctlResume (part inst : Nat) (s : State) : Out := .next (s.instResume part inst)

/-! ### The device scheduler (R247) -/

/-- Whether an instance waits for the scheduler. -/
def State.waits (s : State) (i : Inst) : Bool :=
  !i.resizeWait && (s.part i.part).resizing.isNone &&
  match i.state with
  | .stopped => i.schedStopped
  | .suspendedAstore | .suspendedRegions => true
  | .quota => !(s.instExhausted i)
  | _ => false

/-- The instances of a partition. -/
def State.instsOf (s : State) (part : Nat) : List Inst := s.insts.filter fun i => decide (i.part = part)

/-- Instances of lower priority that the scheduler has stopped give up their tiles for a waiting one. -/
def State.displace (s : State) (i : Inst) : State :=
  ((s.instsOf i.part).filter fun j => decide (j.state = .stopped ∧ j.prio < i.prio) && j.schedStopped).foldl
    (fun s j => ((s.threadsOf j.part j.num).filter fun t => !t.homeless).foldl State.unhome s) s

/-- The state in which a waiting instance has homes for its threads, if it can have them. -/
def State.makeRoom (s : State) (i : Inst) : Option State :=
  match s.rehome i.part i.num with
  | some s1 => some s1
  | none => (s.displace i).rehome i.part i.num

/-- Whether a waiting instance resumes now; one whose account is exhausted enters QUOTA instead (R344 step 2). -/
def State.canRun (s : State) (i : Inst) : Bool :=
  s.waits i && decide (i.rmin ≤ (s.part i.part).tiles.length) && (s.makeRoom i).isSome

/-- The order in which the scheduler resumes: PRIO, the energy ratio of R243 step 3, the longest wait. -/
def State.instBefore (s : State) (x y : Inst) : Bool :=
  let en (i : Inst) : Nat := (s.account i.acct).last16.sum
  let wt (i : Inst) : Nat := (s.account i.acct).weight.toNat
  if x.prio ≠ y.prio then decide (x.prio > y.prio)
  else if en x * wt y ≠ en y * wt x then decide (en x * wt y < en y * wt x)
  else decide (x.stoppedSince < y.stoppedSince)

/-- SCHEDULER_RESUME (R247): the waiting instance that comes first among those that can run. -/
def execSchedulerResume (part inst : Nat) (s : State) : Out :=
  match pick s.instBefore ((s.instsOf part).filter s.canRun) with
  | none => .next s
  | some i => .next (if i.num ≠ inst then s else if s.instExhausted i then s.runInst part inst
      else match s.makeRoom i with | some s1 => s1.runInst part inst | none => s)

/-- SCHEDULER_PREEMPT (R247): for a waiting instance that lacks slots or footprints, the RUNNING instance of the lowest
lower priority, the most recently launched first. -/
def execSchedulerPreempt (part inst : Nat) (s : State) : Out :=
  let all := s.instsOf part
  let needy := all.filter fun i => s.waits i && decide (i.state = .stopped ∨ i.state = .suspendedAstore) && (s.makeRoom i).isNone
  let lower := all.filter fun j => decide (j.state = .running) && needy.any fun i => decide (j.prio < i.prio)
  match pick (fun x y => decide (x.prio < y.prio ∨ (x.prio = y.prio ∧ x.launchSeq > y.launchSeq))) lower with
  | none => .next s
  | some j =>
    .next (if j.num ≠ inst then s
      else ((s.setInst { j with schedStopped := true }).requestCut part inst 2 0 0 (some (s.pdl part))).1)

end Sys2Proof.Machine
end

