-- ==== Sys2Proof/Machine/Energy.lean ====
section
/-! DEFINITION. Energy accounts: the instructions of major 0x3D (R348 to R352), flushes (R336), the split of shared
energy (R346), exhaustion (R343 to R345) and calibration trims (R338). -/

namespace Sys2Proof.Machine

/-! ### The account registers (R340, R348, R351) -/

/-- The item and account that a selector names; the cause where it is refused (R348). `write` is `en.sub` or `en.set`. -/
def State.energySel (s : State) (t : Thread) (v : Word) (write : Bool) : Except Nat (Nat × Nat) :=
  let item := wbits v 0 4
  let named := wbits v 4 7
  let acct := if named = 0x7F then t.acct else named
  if wbits v 11 53 ≠ 0 ∨ item > 11 then .error 0x06
  else if t.level = 0 ∧ acct ≠ t.acct then .error 0x21
  else if acct > 64 ∨ (write ∧ acct = 64) then .error 0x21
  else if t.level = 1 ∧ !((s.part t.part).functions.contains acct) then .error 0x21
  else if (item = 8 ∨ item = 9 ∨ item = 10) ∧ t.level < 2 then .error 0x21
  else .ok (item, acct)

/-- An item of an account as it is read (R340); the device account's quota reads all ones. -/
def State.energyItem (s : State) (part item acct : Nat) : Word :=
  let a := s.account acct
  match item with
  | 0 => a.acct
  | 1 => if acct = 64 then allOnes else a.quota
  | 2 => a.reserve
  | 3 => a.shared
  | 4 => a.status
  | 5 => a.low
  | 6 => a.weight
  | 7 => a.dyn16
  | 8 => s.dev.pkg
  | 9 => s.dev.spool
  | 10 => s.dev.resid
  | _ => (s.part part).pool

/-- The reserve that a written balance sets (R351). One that the 48 bits of RES (R340) do not hold is an unstated value,
which is free (log 115). -/
def State.reserveOf (s : State) (v : Word) : Word :=
  let r := if v = allOnes then 0 else max (v.toNat / 200) 1000000
  if r < 2 ^ 48 then word r else word (wbits (Config.freeWord s.fresh) 0 48)

/-- `en.set` at the account unit (R351): the cause, and whether its value is the operand rather than the selector. -/
def State.energySet (s0 : State) (part item acct : Nat) (v : Word) : Except (Nat × Bool) State :=
  let s := s0
  let a := s.account acct
  let p := s.part part
  match item with
  | 1 =>
    let s : State := if v ≠ allOnes ∧ v.toNat / 200 ≥ 2 ^ 48 then { s with fresh := s.fresh + 1 } else s
    let a1 := { a with quota := v, reserve := s0.reserveOf v, status := if v ≠ 0 then a.status &&& ~~~(1 : Word) else a.status }
    if p.pool = allOnes then .ok (s.setAccount acct a1)
    else
      let avail := p.pool.toNat + (if a.quota = allOnes then 0 else a.quota.toNat)
      if v = allOnes ∨ v.toNat > avail then .error (0x04, true)
      else .ok ((s.setAccount acct a1).setPart part { p with pool := word (avail - v.toNat) })
  | 2 => if wbits v 48 16 ≠ 0 then .error (0x06, true) else .ok (s.setAccount acct { a with reserve := v })
  | 4 => if wbits v 5 59 ≠ 0 ∨ bit v.toNat 0 then .error (0x06, true) else .ok (s.setAccount acct { a with status := a.status &&& ~~~v })
  | 5 => .ok (s.setAccount acct { a with low := v })
  | 6 => if wbits v 16 48 ≠ 0 then .error (0x06, true) else .ok (s.setAccount acct { a with weight := if v = 0 then 1 else v })
  | _ => .error (0x06, false)

/-- The issue of an energy instruction whose selector stands in s[a]: a selector that fails traps and nothing changes
(R348); one that passes is charged its NoC flits (R352). -/
def energyIssue (i : Instr) (least : Nat) (a : BitVec 5) (write : Bool) (s : State) (k : State → Thread → Nat → Nat → State) : Out :=
  issue i least s fun s t =>
    match s.energySel t (t.reg a.toNat) write with
    | .error c => s.raiseFree t i c
    | .ok (item, acct) => k (s.chargePath (s.islandOf t.tile) t.bill [0x0A]) t item acct

/-- `en.rd` (R349). -/
def execEnRd (d a : BitVec 5) (s0 : State) : Out :=
  energyIssue (.enRd d a) 0 a false s0 fun s t item acct =>
    s.event s0 t (.enRd d a) 8 0 (s.energyItem t.part item acct) fun s1 v => s1.result t (.enRd d a) d v

/-- What `en.sub` gives: 0 where it is refused (R350). -/
def Account.subtrahend (x : Account) (v : Word) : Word := if x.quota = allOnes ∨ x.quota.toNat < v.toNat then 0 else v

/-- An account gives `w` of its balance back to its partition (R350). -/
def State.giveBack (s : State) (part acct : Nat) (w : Word) : State :=
  if w = 0 then s
  else
    let x := s.account acct
    let left := x.quota.toNat - w.toNat
    let p := s.part part
    let s1 := s.setAccount acct { x with quota := word left, exhDue := x.exhDue || decide (left = 0) }
    if p.pool = allOnes then s1 else s1.setPart part { p with pool := word (min (p.pool.toNat + w.toNat) (2 ^ 64 - 2)) }

/-- `en.sub` (R350): the result decides what is returned to the partition. A replay answers the logged result and changes no
account a second time (log 72). -/
def execEnSub (d a b : BitVec 5) (s0 : State) : Out :=
  energyIssue (.enSub d a b) 0 a true s0 fun s t item acct =>
    if item ≠ 1 then s.raiseFree t (.enSub d a b) 0x06
    else
      let live := (s.account acct).subtrahend (t.reg b.toNat)
      let replayed : Bool := (s.part t.part).replay != []
      s.event s0 t (.enSub d a b) 8 0 live fun s1 w =>
        (if replayed then s1 else s1.giveBack t.part acct w).result t (.enSub d a b) d w

/-- `en.set` (R351). -/
def execEnSet (a b : BitVec 5) (s : State) : Out :=
  energyIssue (.enSet a b) 1 a true s fun s t item acct =>
    match s.energySet t.part item acct (t.reg b.toNat) with
    | .error (c, operand) => s.raise t (.enSet a b) c (if operand then t.reg b.toNat else t.reg a.toNat)
    | .ok s1 => s1.advance t (.enSet a b)

/-! ### Falls of a balance (R343, R344) -/

/-- A KIND 2 record of an account event. -/
def State.accountRecord (s : State) (part f cause : Nat) : State :=
  (s.addRecord part { cause, kind := 2, value := word f, name := { part, acct := f, ordinal := 0 } }).1

/-- The balance of a function has come to 0: EXH and the records (R344 step 1); its cuts start within 2 µs. -/
def State.exhaust (s : State) (f : Nat) : State :=
  let a := s.account f
  let s1 := s.setAccount f { a with status := a.status ||| 1, cutBy := some (s.dev.elapsed + 2000) }
  match (s.func f).part with
  | none => s1
  | some part =>
    let r : Record := { cause := 0x80, kind := 2, value := word f, name := { part, acct := f, ordinal := 0 } }
    let (s2, id) := s1.addRecord part r
    s2.errorLog { r with id }

/-- Whether a thread of an instance carries an account (R344). -/
def State.carriedBy (s : State) (i : Inst) (f : Nat) : Bool := (s.threadsOf i.part i.num).any fun t => decide (t.acct = f)

/-- A QUOTA cut starts on each instance that runs and whose threads carry an exhausted account, or joins its cut in progress
(R344 step 2). A refill that comes before does not keep it from starting (log 139). -/
def State.quotaCuts (s : State) (f : Nat) : State :=
  let a := s.account f
  if a.cutBy.isNone then s
  else
    (s.insts.filter fun i => i.runs && s.carriedBy i f).foldl (fun s i => (s.requestCut i.part i.num 4 0 0 (some 250000)).1)
      (s.setAccount f { a with cutBy := none })

/-- Whether the time has come by which the cuts of an exhaustion start. -/
def State.cutsDue (s : State) (a : Account) : Bool := a.cutBy.any fun d => decide (d ≤ s.dev.elapsed)

/-- Whether a cut has the purpose QUOTA. -/
def Inst.quotaIn (_i : Inst) (c : Option Cut) : Bool := c.any fun c => bit c.purpose 2

/-- Forces the QUOTA cut of an instance (R344 step 4): the one in progress, which one that waits behind it joins. -/
def State.forceQuota (s : State) (i : Inst) : State :=
  match s.inst? i.part i.num with
  | none => s
  | some j => match j.cut with
    | some c =>
      let rest := j.pending.bind fun p => let q := p.purposes &&& ~~~(4 : BitVec 6); if q = 0 then none else some { p with purposes := q }
      let j1 := { j with pending := rest, cut := some { c with purposes := c.purposes ||| 4 } }
      (s.setInst j1).forceCut j1 { c with purposes := c.purposes ||| 4 }
    | none => s

/-- Acts on a fall of one account's balance; a reserve that is used up starts the cuts that are left to start and forces all
of them (R344 step 4). -/
def State.accountDue (s : State) (f : Nat) : State :=
  let a := s.account f
  let s1 := if a.lowDue then
      match (s.func f).part with
      | some part => (s.setAccount f { a with lowDue := false }).accountRecord part f 0x82
      | none => s.setAccount f { a with lowDue := false }
    else s
  let b := s1.account f
  let s2 := if b.exhDue then (s1.setAccount f { b with exhDue := false }).exhaust f else s1
  let spent := bit (s2.account f).status.toNat 0 && decide ((s2.account f).reserve = 0) && !(decide ((s2.account f).quota = allOnes))
  let s3 := if spent || s2.cutsDue (s2.account f) then s2.quotaCuts f else s2
  if !spent then s3
  else
    let open_ := s3.insts.filter fun i => s3.carriedBy i f && (i.quotaIn i.cut || i.quotaIn i.pending)
    let c := s3.account f
    if open_.isEmpty then s3 else open_.foldl State.forceQuota (s3.setAccount f { c with status := c.status ||| 4 })

/-- Whether an account has something to act on. -/
def State.accountsDue (s : State) : List Nat :=
  (s.accounts.filter fun e => e.2.lowDue || e.2.exhDue || s.cutsDue e.2 || (bit e.2.status.toNat 0 && decide (e.2.reserve = 0))).map Prod.fst

/-! ### Flushes (R336) -/

/-- A meter flushes its accumulators; each keeps its account. -/
def State.flushMeter (s : State) (m : Nat) : State :=
  let accs := tabGet [] s.meters m
  let s1 := accs.foldl (fun s e => if e.2 = 0 then s else s.setAccount e.1 ((s.account e.1).flush e.2)) s
  if accs.all fun e => decide (e.2 = 0) then s1 else { s1 with meters := tabSet s1.meters m (accs.map fun e => (e.1, 0)) }

/-- Whether 10 µs of elapsed time have passed since a meter's last periodic flush (R336). -/
def State.flushDue (s : State) (m : Nat) : Bool := decide (s.dev.elapsed / 10000 > tabGet 0 s.dev.meterFlushed m / 10000)

/-- METER_FLUSH (R336): the flush that each 10 µs of elapsed time bring. -/
def execMeterFlush (meter : Nat) (s : State) : Out :=
  .next (if s.flushDue meter then
    let s1 := s.flushMeter meter
    { s1 with dev := { s1.dev with meterFlushed := tabSet s1.dev.meterFlushed meter s.dev.elapsed } } else s)

/-- What every meter holds for an account is flushed to it (R336). -/
def State.flushAccount (s : State) (acct : Nat) : State :=
  s.meters.foldl (fun s e =>
    match e.2.find? fun x => decide (x.1 = acct) with
    | some x =>
      let s1 := s.setAccount acct ((s.account acct).flush x.2)
      { s1 with meters := tabSet s1.meters e.1 ((tabGet [] s1.meters e.1).filter fun x => decide (x.1 ≠ acct)) }
    | none => s) s

/-! ### The end of an accounting interval (R346) -/

/-- Whole nanojoules of a shared source and the state with its fraction kept (R346 step 2). -/
def State.wholeOf (s : State) (source amount : Nat) : State × Nat :=
  let total := s.dev.fractions.getD source 0 + amount
  let fr := s.dev.fractions ++ List.replicate (source + 1 - s.dev.fractions.length) 0
  ({ s with dev := { s.dev with fractions := fr.set source (total % 256000) } }, total / 256000)

/-- The existing partitions. -/
def State.partNums (s : State) : List Nat := (s.parts.filter fun e => e.2.exists_).map Prod.fst

/-- Splits a total by weights: each share, and what is left over. -/
def split (total : Nat) (ws : List (Nat × Nat)) : List (Nat × Nat) × Nat :=
  let sum := (ws.map Prod.snd).sum
  if sum = 0 then ([], total)
  else
    let shares := ws.map fun w => (w.1, total * w.2 / sum)
    (shares, total - (shares.map Prod.snd).sum)

/-- The share of one number in a split. -/
def shareOf (xs : List (Nat × Nat)) (n : Nat) : Nat := ((xs.filter fun e => decide (e.1 = n)).map Prod.snd).sum

/-- Adds energy to the shared pool. -/
def State.toPool (s : State) (n : Nat) : State := { s with dev := { s.dev with spool := s.dev.spool + word n } }

/-- Shared energy reaches an account. -/
def State.addShared (s : State) (acct n : Nat) : State := if n = 0 then s else s.setAccount acct ((s.account acct).addEnergy n true)

/-- One partition's total, split among its functions by their dynamic energy, equally where that is zero. -/
def State.splitPartition (s : State) (part total : Nat) : State :=
  let fs := (s.part part).functions
  let dyn := fs.map fun f => (f, (s.account f).dynNow)
  let ws := if dyn.all fun e => decide (e.2 = 0) then fs.map fun f => (f, 1) else dyn
  let (shares, left) := split total ws
  (shares.foldl (fun s e => s.addShared e.1 e.2) s).toPool left

/-- The leakage of every built tile in whole nanojoules: virtual tiles 0 to 191, then the others. -/
def State.leaks (s : State) : Nat → State × List (Nat × Nat)
  | 0 => (s, [])
  | n + 1 =>
    let (s1, r) := s.leaks n
    let (s2, v) := s1.wholeOf (n + 2) (Config.leakage s1.fresh n)
    (s2, r ++ [(n, v)])

/-- An account's interval ends (R346 step 6): the sixteen last intervals and the mirrors (R16). -/
def Account.endInterval (a : Account) : Account :=
  let l := (a.last16 ++ [a.dynNow]).drop (a.last16.length + 1 - 16)
  { a with last16 := l, dyn16 := word l.sum, dynNow := 0, mirAcct := a.acct, mirQuota := a.quota }

/-- The rail sensors' energy of an interval, of which `attributed` nanojoules have reached the accounts and the pool: after
the first trim and at a steady temperature the residual grows by at most 1 % of it (R339, log 114). -/
def State.railEnergy (s : State) (measured attributed : Nat) : Nat :=
  if s.dev.calGen > s.dev.calBase && Config.steady s.fresh then min measured (100 * attributed / 99) else measured

/-- The factor of a trim of an island in parts per million before its clamp: after the first trim and at a steady temperature
the metered total is within 2 % of the sensor energy (R338, R339). -/
def State.trimRatio (s : State) (island : Nat) : Nat :=
  let r := Config.trimFactor s.dev.calGen island
  if s.dev.calGen > s.dev.calBase && Config.steady s.fresh then max 980393 (min 1020408 r) else r

/-- The energy that the work of an account of which `total` was charged would draw alone on the same islands: after the first
trim and at a steady temperature the total is within 3 % of it (R339, log 114). -/
def State.aloneEnergy (s : State) (acct total : Nat) : Nat :=
  let e := Config.aloneEnergy s.fresh acct
  if s.dev.calGen > s.dev.calBase && Config.steady s.fresh then max ((100 * total + 102) / 103) (min (100 * total / 97) e) else e

/-- The new coefficients take effect (R338). -/
def Device.trimmed (d : Device) : Device :=
  if !d.trimDue then d
  else { d with
    calGen := d.calGen + 1
    trims := d.trimNext.foldl (fun ts e => tabSet ts e.1 (tabGet [] ts e.1 ++ [(e.2, d.calGen + 1)])) d.trims
    trimNext := [], trimDue := false }

/-- The end of an interval: flush, shared sources, their split, totals. Tethys's copies of the mirrors follow while it is up
(R12). -/
def State.endInterval (s : State) : State :=
  let s1 := s.meters.foldl (fun s e => s.flushMeter e.1) s
  let parts := s1.partNums
  let (s2, hbm) := s1.wholeOf 0 (Config.refreshEnergy s1.fresh)
  let (s3, infra) := s2.wholeOf 1 (Config.infraEnergy s2.fresh)
  let (s4, leaks) := s3.leaks 208
  let (s5, pkg) := s4.wholeOf 210 (Config.pkgEnergy s4.fresh)
  let s6 := { s5 with fresh := s5.fresh + 1 }
  let granules := parts.map fun p => (p, (s6.part p).granules.length)
  let (hs, hl) := split hbm (granules ++ [(64, 512 - (granules.map Prod.snd).sum)])
  let owner (n : Nat) : Nat := if n < 192 then (parts.find? fun p => (s6.part p).tiles.contains n).getD 64 else 64
  let ls := leaks.map fun e => (owner e.1, e.2)
  let dyn := (parts.map fun p => (p, (((s6.part p).functions.map fun f => (s6.account f).dynNow)).sum)) ++ [(64, (s6.account 64).dynNow)]
  let (is, il) := if dyn.all fun e => decide (e.2 = 0) then ([(64, infra)], 0) else split infra dyn
  let total (n : Nat) : Nat := shareOf hs n + shareOf ls n + shareOf is n
  let s7 := ((parts.foldl (fun s p => s.splitPartition p (total p)) s6).addShared 64 (total 64)).toPool (hl + il)
  let sum := (List.range 65).foldl (fun (w : Word) a => w + (s7.account a).acct) 0
  let rail := s7.railEnergy pkg (sum + s7.dev.spool - (s7.dev.pkg - s7.dev.resid)).toNat
  let s8 : State := { s7 with dev := { s7.dev with pkg := s7.dev.pkg + word rail }, fresh := s7.fresh + 1 }
  let s9 : State := (List.range 65).foldl (fun s a => s.setAccount a (s.account a).endInterval) s8
  { s9 with
    dev := { s9.dev.trimmed with
      resid := s9.dev.pkg - sum - s9.dev.spool
      interval := s9.dev.time / 1000000 }
    teth := if s9.teth.booted then
        { s9.teth with mirrors := (List.range 65).map fun a => (a, ((s9.account a).mirAcct, (s9.account a).mirQuota)) }
      else s9.teth }

/-- INTERVAL_END (R346, R384): device time has passed a boundary since the last one. -/
def execIntervalEnd (s : State) : Out := .next (if s.dev.time / 1000000 > s.dev.interval then s.endInterval else s)

/-! ### Calibration trims (R338) -/

/-- The partition of the tile of an island. -/
def State.islandOwner (s : State) (island : Nat) : Option Nat :=
  ((List.range 192).find? fun t => decide (s.islandOf t = island)).bind fun t => (s.tile t).owner

/-- The energy that calibration itself uses, charged to the device account (R338). -/
def State.chargeCalibration (s : State) : State :=
  { s.setAccount 64 ((s.account 64).flush (Config.calEnergy s.fresh)) with fresh := s.fresh + 1 }

/-- The islands' voltage margins as firmware measures them with calibration (R410): a tile whose margin is below its limit is
due to be retired. From 24 h under power on, each measurement predicts the end of life anew (R411, log 137). -/
def State.measureWear (s : State) : State :=
  let ms : Tab Word := (List.range 256).map fun k => (k, word (wbits (Config.wearMargin s.fresh k) 0 32))
  let low (t : Nat) : Bool :=
    let m := tabGet 0 ms (s.islandOf t)
    (s.tile t).present && !(s.dev.retireDue.contains t) && decide (wbits m 0 16 < wbits m 16 16)
  let eol := Config.wearEol s.fresh
  let old := s.dev.predicted || decide (s.dev.powered ≥ 24 * 3600000000000)
  { s with
    fresh := s.fresh + 1
    dev := { s.dev with
      margins := ms, retireDue := s.dev.retireDue ++ (List.range 192).filter low, predicted := old
      wearDays := if old then wbits eol 0 32 else s.dev.wearDays
      wearConf := if old then wbits eol 32 8 % 101 else s.dev.wearConf } }

/-- CALIBRATION_TRIM (R338, R410, log 120), every 10 s of elapsed time once the part is calibrated: one factor for each island, clamped; the
new coefficients wait for the next interval boundary. An island whose factor had to be clamped has an error record, whose
value the spec does not state. The wear margins are measured with it. -/
def execCalibrationTrim (s : State) : Out :=
  if !s.dev.cal || decide (s.dev.elapsed < s.dev.trimLast + 10000000000) then .next s
  else
    let ratio (k : Nat) : Nat := s.trimRatio k
    let clamped := (List.range 256).filter fun k => decide (ratio k < 900000 ∨ 1100000 < ratio k)
    let s1 : State := { s.chargeCalibration with dev := { s.dev with
      trimDue := true, trimLast := s.dev.elapsed
      trimNext := (List.range 256).map fun k => (k, max 900000 (min 1100000 (ratio k))) } }
    .next (clamped.foldl (fun s k => { s with fresh := s.fresh + 1 }.errorRecord (s.islandOwner k) 0x95 (Config.freeWord s.fresh))
      s1).measureWear

end Sys2Proof.Machine
end

