-- ==== Sys2Proof/Machine/System.lean ====
section
/-! DEFINITION. The system instructions of major 0x3E (R360, R361, R380 to R385), the control registers (R381), and
the events at a thread's boundary (R359, R382, R390). -/

namespace Sys2Proof.Machine

/-! ### `trap`, `tret`, `dbg.brk` -/

/-- `trap` (R360): complete, with the next instruction as resume address (R355). -/
def execTrap (c : BitVec 6) (s : State) : Out :=
  issue (.trap c) 0 s fun s t => s.takeTrap t 0x08 (word c.toNat) t.pc t.seq (t.nextPc (.trap c))

/-- `tret` (R361). -/
def execTret (s : State) : Out :=
  issue .tret 0 s fun s t => s.returnFromTrap t (word (firstWord .tret).toNat)

/-- `dbg.brk` (R391). -/
def execDbgBrk (c : BitVec 6) (s : State) : Out :=
  issue (.dbgBrk c) 0 s fun s t => s.takeTrap t 0x09 (word c.toNat) t.pc t.seq (t.nextPc (.dbgBrk c))

/-! ### `idle` (R382) -/

/-- `idle`: the thread is Waiting; the wait keeps the count of TAIL changes of the record ring at its issue. -/
def execIdle (s : State) : Out :=
  issue .idle 0 s fun s t => s.waitAt t .idle (s.part t.part).recChanged

/-- A waiting `idle`, with its wait. -/
def Thread.idling (t : Thread) : Option Wait := if t.state = .waiting then t.wait.filter fun w => decide (w.instr = .idle) else none

/-- Whether an `idle` at level S has seen TAIL of the record ring change. -/
def State.idleSeen (s : State) (t : Thread) (w : Wait) : Bool := decide (t.level = 1 ∧ (s.part t.part).recChanged ≠ w.pa)

/-- IDLE_TIMEOUT (R382, R384): 1 ms of device time has passed since its issue. -/
def execIdleTimeout (thread : Nat) (s : State) : Out :=
  match s.thread? thread with
  | none => .next s
  | some t => match t.idling with
    | none => .next s
    | some w => .next (if s.dev.time ≥ w.since + 1000000 then s.advance t .idle else s)

/-! ### `time.rd` (R383) -/

/-- `time.rd`. -/
def execTimeRd (d : BitVec 5) (s0 : State) : Out :=
  issue (.timeRd d) 0 s0 fun s t =>
    s.event s0 t (.timeRd d) 8 0 (word s.dev.time) fun s1 v => s1.result t (.timeRd d) d v

/-! ### The control registers (R381, R388, R396, R397, R411) -/

/-- Whether a number lies in a range. -/
def inRange (n lo hi : Nat) : Bool := decide (lo ≤ n ∧ n ≤ hi)

/-- The least level that reads a register, if any does. -/
def csrReadLevel (n : Nat) : Option Nat :=
  if n = 0x000 ∨ inRange n 0x003 0x005 ∨ n = 0x010 ∨ n = 0x020 ∨ n = 0x028 ∨ n = 0x02B ∨ inRange n 0x040 0x046 ∨
      n = 0x050 ∨ n = 0x051 ∨ n = 0x060 ∨ n = 0x061 ∨ inRange n 0x070 0x07F then some 0
  else if n = 0x002 ∨ inRange n 0x021 0x027 ∨ n = 0x029 ∨ inRange n 0x02C 0x02E ∨ n = 0x080 ∨ n = 0x091 ∨
      inRange n 0x0A0 0x0A2 ∨ inRange n 0x0B0 0x0B8 ∨ inRange n 0x0C0 0x0C7 ∨ inRange n 0x0E0 0x0F0 ∨
      inRange n 0x100 0x105 then some 1
  else none

/-- The least level that writes a register, if any does. -/
def csrWriteLevel (n : Nat) : Option Nat :=
  if n = 0x028 then some 0
  else if n = 0x001 ∨ n = 0x002 ∨ inRange n 0x021 0x027 ∨ n = 0x029 ∨ n = 0x02A ∨ inRange n 0x02C 0x02E ∨
      inRange n 0x040 0x046 ∨ n = 0x051 ∨ n = 0x061 ∨ n = 0x080 ∨ n = 0x090 ∨ n = 0x091 ∨ n = 0x0A1 ∨ n = 0x0A2 ∨
      (inRange n 0x0C0 0x0C7 ∧ n ≠ 0x0C3 ∧ n ≠ 0x0C6) ∨ (inRange n 0x0E0 0x0F0 ∧ n ≠ 0x0E3) ∨ n = 0x103 then some 1
  else if inRange n 0x0B0 0x0B8 then some 2
  else none

/-- A register of the thread or its tile; the others are device registers, reached through the NoC (R380, R385). -/
def csrLocal (n : Nat) : Bool :=
  inRange n 0x020 0x026 || decide (n = 0x028 ∨ n = 0x02B) || inRange n 0x040 0x046 || inRange n 0x050 0x07F || inRange n 0x0E0 0x0F0

/-- The reads that the order log holds: `DEV_`, `EN_` and `Q_` registers (R401). -/
def csrLogged (n : Nat) : Bool := inRange n 0x000 0x005 || decide (n = 0x080) || inRange n 0x0A0 0x0A2

/-- `DEV_STATUS` (R14, R379). -/
def State.devStatus (s : State) : Word :=
  let b (x : Bool) (n : Nat) : Nat := if x then 2 ^ n else 0
  word (b s.dev.ready 0 + b s.dev.cal 1 + b s.dev.memInit 2 + b s.dev.mgmt 3 + b s.dev.attach 4 +
    b (decide (s.dev.errTail ≠ s.dev.errHead)) 5 + b s.dev.degraded 6)

/-- One of the three words of the presented tiles of a partition (R370). -/
def tileMask (tiles : List Nat) (k : Nat) : Word :=
  word ((List.range 64).foldl (fun n b => if tiles.contains (64 * k + b) then n + 2 ^ b else n) 0)

/-- The charge classes of R335. -/
def chargeClass (c : Nat) : Bool :=
  decide (c ≤ 0x1C) || inRange c 0x20 0x22 || inRange c 0x28 0x2B || inRange c 0x30 0x32 || inRange c 0x38 0x3A

/-- `EN_TABLE` (R337): the coefficient at the moment of the read, for an island of a tile of the partition. -/
def State.enTableRead (s : State) (part : Nat) : Word :=
  let v := (s.part part).enTable
  let cls := wbits v 0 8
  let island := wbits v 11 8
  if chargeClass cls && (s.part part).tiles.any (fun t => decide (s.islandOf t = island)) then
    word (wbits v 0 19 + 2 ^ 19 + s.dev.coef cls island (wbits v 8 3) * 2 ^ 20)
  else word (wbits v 0 19)

/-- The page that is resident on a region. -/
def State.residentOn (s : State) (tile : Nat) : Option Page :=
  (s.pages.find? fun e => decide (e.2.region = some tile)).map Prod.snd

/-- `DB_TRCSTAT` (R387). -/
def Tile.trcStat (tl : Tile) : Word :=
  word (tl.trcWptr % 2048 + (if tl.trcFrozen then 2 ^ 11 else 0) + tl.trcCause % 8 * 2 ^ 12 +
    (if tl.trcDovf then 2 ^ 15 else 0) + tl.trcDrop % 65536 * 2 ^ 16)

/-- `DB_TRCDATA` (R387): the selected word, and the tile with the selection advanced by one word. -/
def Tile.trcRead (tl : Tile) : Word × Tile :=
  let r := tl.trace.getD (wbits tl.trcSel 0 11) ⟨0, 0, 0, 0⟩
  let v := match wbits tl.trcSel 11 2 with | 0 => r.w0 | 1 => r.w1 | 2 => r.w2 | _ => r.w3
  let k := (wbits tl.trcSel 11 2 + 4 * wbits tl.trcSel 0 11 + 1) % 8192
  (if bit tl.trcCtl.toNat 0 ∧ tl.trcFrozen = false then 0 else v, { tl with trcSel := word (k / 4 + k % 4 * 2 ^ 11) })

/-- The wear readings (R411); the margin is that of the selected island. -/
def State.wearRead (s : State) (k : Nat) : Word :=
  match k with
  | 0 => word (s.dev.wearDays % 2 ^ 32 + s.dev.wearConf % 2 ^ 8 * 2 ^ 32)
  | 1 => word (min (s.dev.powered / 3600000000000) (2 ^ 32 - 1) + min s.dev.cycles (2 ^ 32 - 1) * 2 ^ 32)
  | 2 => word (s.dev.spares0 % 16 + s.dev.spares1 % 16 * 16 + s.dev.retired0 % 256 * 2 ^ 8 + s.dev.retired1 % 256 * 2 ^ 16)
  | 3 => word s.dev.wearSel
  | 4 => word (wbits (tabGet 0 s.dev.margins s.dev.wearSel) 0 32)
  | _ => word (s.dev.pchOut.length % 512)

/-- A `DB_` register of a tile as it reads (R387 to R392). -/
def Tile.dbValue (tl : Tile) (n : Nat) : Word :=
  match n with
  | 0x0E0 => tl.trcCtl
  | 0x0E1 => tl.trcStat
  | 0x0E2 => tl.trcSel
  | 0x0E3 => tl.trcRead.1
  | 0x0F0 => tl.sampleCfg
  | _ =>
    if inRange n 0x0E4 0x0E7 then tl.trig.toArray.getD (n - 0x0E4) 0
    else if inRange n 0x0E8 0x0EB then tl.brk.toArray.getD (n - 0x0E8) 0
    else tl.brkSeq.toArray.getD (n - 0x0EC) 0

/-- `CK_STATUS` (R397). -/
def Partition.ckStatus (p : Partition) : Word :=
  word ((if p.ckBusy then 1 else 0) + (if p.ckReplay then 2 else 0) + p.ckSkip % 65536 * 2 ^ 16 + if p.ckSovf then 2 ^ 32 else 0)

/-- The value a register reads as, for a thread; the scales of R289 with copies of bit 31 above it. -/
def State.csrValue (s : State) (t : Thread) (n : Nat) : Word :=
  let p := s.part t.part
  let tl := s.tile t.tile
  match n with
  | 0x000 => s.devStatus
  | 0x002 => match p.granules[p.pmapIx]? with
    | some g => word (p.pmapIx % 512 + g * 2 ^ 30 + 2 ^ 63)
    | none => word (p.pmapIx % 512)
  | 0x003 => tileMask p.tiles 0
  | 0x004 => tileMask p.tiles 1
  | 0x005 => tileMask p.tiles 2
  | 0x010 => 0x35666
  | 0x020 => t.sw
  | 0x021 => t.tsw
  | 0x022 => t.tpc
  | 0x023 => word t.tseq.toNat
  | 0x024 => t.cause
  | 0x025 => t.tval
  | 0x026 => t.rpc
  | 0x027 => p.vec
  | 0x028 => t.spill
  | 0x029 => p.root
  | 0x02B => word (t.num % 1024 + t.ordinal % 65536 * 1024)
  | 0x02C => p.recRing
  | 0x02D => word (t.ctxSel.toNat % 2 ^ 56 + if (s.selected t).isNone then 2 ^ 63 else 0)
  | 0x02E => (s.ctxRead t).1
  | 0x040 => word (match s.residentOn t.tile with | some g => g.st.flags.toNat | none => tl.rgFlags.toNat)
  | 0x041 => word (match s.residentOn t.tile with | some g => g.st.rnd | none => tl.rgRnd)
  | 0x042 => tl.rgAcc[0]
  | 0x043 => tl.rgAcc[1]
  | 0x044 => tl.rgAcc[2]
  | 0x045 => tl.rgAcc[3]
  | 0x046 => tl.rgAcc[4]
  | 0x050 => t.mxTcfg
  | 0x051 => word tl.mxFlags.toNat
  | 0x060 => t.skTcfg
  | 0x061 => word ((List.range 4).foldl (fun v g => v + (tl.skFlags.toArray.getD g 0).toNat * 2 ^ (8 * g)) 0)
  | 0x080 => s.enTableRead t.part
  | 0x091 => word p.pdl
  | 0x0A0 => word (p.qFirst % 65536 + p.qCount % 65536 * 65536)
  | 0x0A1 => p.qTable
  | 0x0A2 => if p.qKept then 0x10000 else 0
  | 0x0C0 => p.ckPeriod
  | 0x0C1 => p.ckTier
  | 0x0C2 => p.ckTierLen
  | 0x0C3 => p.ckTierWr
  | 0x0C4 => p.ckTierLim
  | 0x0C5 => p.ckStatus
  | 0x0C6 => p.ckLast
  | 0x0C7 => p.ckCtl
  | _ =>
    if inRange n 0x070 0x07F then BitVec.ofInt 64 (signed 32 ((tl.scales.toArray.getD (n - 0x070) 0) % 2 ^ 32).toNat)
    else if inRange n 0x0B0 0x0B8 then s.dev.hash.toArray.getD (n - 0x0B0) 0
    else if inRange n 0x0E0 0x0F0 then tl.dbValue n
    else s.wearRead (n - 0x100)

/-- What a read leaves beside its value: a selection that has advanced (R366, R387). -/
def State.csrAfterRead (s : State) (t : Thread) (n : Nat) : State × Thread :=
  if n = 0x02E then (s.ctxRead t).2
  else if n = 0x0E3 then (s.setTile t.tile (s.tile t.tile).trcRead.2, t)
  else (s, t)

/-- The checks of R380: ILL for a register that is not there for the access, PRIV below its level. -/
def csrCause (level : Nat) (least : Option Nat) : Option Nat :=
  match least with
  | none => some 0x01
  | some l => if level < l then some 0x02 else none

/-- `csr.rd` (R380). -/
def execCsrRd (d : BitVec 5) (r : BitVec 11) (s0 : State) : Out :=
  issue (.csrRd d r) 0 s0 fun s t =>
    let i := Instr.csrRd d r
    let n := r.toNat
    match csrCause t.level (csrReadLevel n) with
    | some c => s.raise t i c (word (firstWord i).toNat)
    | none =>
      let s1 := if csrLocal n then s else s.chargePath (s.islandOf t.tile) t.bill [0x0A]
      let v := s1.csrValue t n
      if csrLogged n then s1.event s0 t i 8 n v fun s2 w => s2.result t i d w
      else
        let (s2, t2) := s1.csrAfterRead t n
        s2.result t2 i d v

/-! ### Writes -/

/-- A region counter's write: COUNT is stored, a written one clears OVF (R396). -/
def rgWrite (old v : Word) : Word := word (wbits v 0 63) ||| (if bit v.toNat 63 then 0 else old &&& word (2 ^ 63))

/-- `RG_FLAGS` or `RG_RND` of the region, its resident page's if there is one (R181, R182). -/
def State.regionWrite (s : State) (tile n : Nat) (v : Word) : State :=
  let f (old : BitVec 5) : BitVec 5 := if n = 0x040 then BitVec.ofNat 5 v.toNat else old
  let m (old : Nat) : Nat := if n = 0x041 ∧ wbits v 0 3 ≤ 4 then wbits v 0 3 else old
  match s.residentOn tile with
  | some p => s.setPage { p with st := { p.st with flags := f p.st.flags, rnd := m p.st.rnd } }
  | none => let tl := s.tile tile; s.setTile tile { tl with rgFlags := f tl.rgFlags, rgRnd := m tl.rgRnd }

/-- FROZEN and DOVF, each cleared by a written one; a one written to FROZEN also sets WPTR to 0 and clears DROP (R387). -/
def Tile.trcStatWrite (tl : Tile) (v : Word) : Tile :=
  let t1 := if bit v.toNat 11 then { tl with trcFrozen := false, trcWptr := 0, trcDrop := 0 } else tl
  if bit v.toNat 15 then { t1 with trcDovf := false } else t1

/-- The period and deadline of checkpoints as they are stored (R397). -/
def ckPeriodStored (v : Word) : Word :=
  let t := wbits v 0 24
  let c := wbits v 24 20
  word ((if t = 0 then 0 else min (max t 10) 10000) + (if c = 0 then 1 else c) * 2 ^ 24)

/-- `MK_PDL` (R248). A value above its range is stored as a free value of the range (log 7). -/
def State.pdlWrite (s : State) (part : Nat) (v : Word) : State :=
  let x := wbits v 0 20
  if x ≤ 1000000 then s.setPart part { s.part part with pdl := if x = 0 then 1 else x }
  else { s.setPart part { s.part part with pdl := (Config.freeWord s.fresh).toNat % 1000000 + 1 } with fresh := s.fresh + 1 }

/-- `DEV_TLBINV` (R144). -/
def State.tlbInvalidate (s : State) (part : Nat) (v : Word) : State :=
  let size := wbits v 0 2
  let va := wbits v 16 40 * 65536
  let hit (e : TlbEntry) : Bool :=
    decide (e.part = part) && (match size with
      | 0 => decide (e.level = 0 ∧ e.va = va)
      | 1 => decide (e.level = 1 ∧ e.va / 2 ^ 26 = va / 2 ^ 26)
      | 2 => decide (e.level ≥ 2 ∧ e.va / 2 ^ 36 = va / 2 ^ 36)
      | _ => true)
  { s with tlb := s.tlb.filter (!hit ·) }

/-- TLB_INVALIDATE (R144). -/
def execTlbInvalidate (part : Nat) (v : Word) (s : State) : Out := .next (s.tlbInvalidate part v)

/-- `MK_INSTCTL` (R235). -/
def State.instctl (s : State) (part : Nat) (v : Word) : State :=
  match wbits v 62 2 with
  | 0 => s.instPreempt part (wbits v 0 32)
  | 1 => s.instResume part (wbits v 0 32)
  | 2 => s.instEnd part (wbits v 0 32)
  | _ => s

/-- A partition's own register as a write stores it: RW fields only (R362, R397, R324, R337, R140). -/
def Partition.store (p : Partition) (n : Nat) (v : Word) : Partition :=
  match n with
  | 0x002 => { p with pmapIx := wbits v 0 9 }
  | 0x027 => { p with vec := word (wbits v 2 62 * 4) }
  | 0x029 => { p with root := word (wbits v 13 39 * 2 ^ 13) }
  | 0x02C => { p with recRing := word ((if 4 ≤ wbits v 0 4 ∧ wbits v 0 4 ≤ 12 then wbits v 0 4 else 4) + wbits v 12 44 * 2 ^ 12) }
  | 0x080 => { p with enTable := word (wbits v 0 19) }
  | 0x0A1 => { p with qTable := word (wbits v 6 50 * 64) }
  | 0x0C0 => { p with ckPeriod := ckPeriodStored v }
  | 0x0C1 => { p with ckTier := word (wbits v 16 40 * 65536) }
  | 0x0C2 => { p with ckTierLen := word (wbits v 16 48 * 65536) }
  | 0x0C4 => { p with ckTierLim := v }
  | 0x0C5 => { p with ckSovf := p.ckSovf && !(bit v.toNat 32) }
  | 0x0C7 => { p with ckCtl := word (wbits v 0 3) }
  | _ => p

/-- A thread's own register as a write stores it (R356, R138, R366). -/
def Thread.store (t : Thread) (n : Nat) (v : Word) : Thread :=
  match n with
  | 0x021 => { t with tsw := v }
  | 0x022 => { t with tpc := v }
  | 0x023 => { t with tseq := BitVec.ofNat 32 v.toNat }
  | 0x024 => { t with cause := word (wbits v 0 8) }
  | 0x025 => { t with tval := v }
  | 0x026 => { t with rpc := v }
  | 0x028 => { t with spill := word (wbits v 3 15 * 8 + wbits v 21 15 * 2 ^ 21 + wbits v 36 18 * 2 ^ 36) }
  | 0x02D => { t with ctxSel := word (wbits v 0 56) }
  | _ => t

/-- A tile's own register as a write stores it (R283, R288, R387, R389, R390, R392, R396). -/
def Tile.store (tl : Tile) (n : Nat) (v : Word) : Tile :=
  match n with
  | 0x051 => { tl with mxFlags := BitVec.ofNat 5 v.toNat }
  | 0x061 => { tl with skFlags := Vector.ofFn fun g => BitVec.ofNat 5 (wbits v (8 * g.val) 5) }
  | 0x0E0 => { tl with trcCtl := word (wbits v 0 27) }
  | 0x0E1 => tl.trcStatWrite v
  | 0x0E2 => { tl with trcSel := word (wbits v 0 13) }
  | 0x0F0 => { tl with sampleCfg := word (wbits v 0 32) }
  | _ =>
    if inRange n 0x042 0x046 then { tl with rgAcc := tl.rgAcc.setIfInBounds (n - 0x042) (rgWrite (tl.rgAcc.toArray.getD (n - 0x042) 0) v) }
    else if inRange n 0x0E4 0x0E7 then { tl with trig := tl.trig.setIfInBounds (n - 0x0E4) (word (wbits v 0 3 + wbits v 8 56 * 256)) }
    else if inRange n 0x0E8 0x0EB then { tl with brk := tl.brk.setIfInBounds (n - 0x0E8) (word (wbits v 0 6 + wbits v 8 56 * 256)) }
    else if inRange n 0x0EC 0x0EF then { tl with brkSeq := tl.brkSeq.setIfInBounds (n - 0x0EC) (word (wbits v 0 32)) }
    else tl

/-- A hash mask of the device configuration, which the next device reset loads (R323, log 119). -/
def State.configMasks (s : State) (k : Nat) (v : Word) : State :=
  let ms := s.dev.hashNext.getD (s.dev.hash.toList.map BitVec.toNat)
  { s with dev := { s.dev with hashNext := some (ms.set k (wbits v 8 31 * 256)) } }

/-- A register write with its side effects, by a thread as it stands in the state. -/
def State.csrStore (s : State) (t : Thread) (n : Nat) (v : Word) : State :=
  if n = 0x001 then s.tlbInvalidate t.part v
  else if n = 0x02A then s.xdone t.part (wbits v 0 32)
  else if n = 0x02E then (s.ctxWrite t v).1
  else if n = 0x090 then s.instctl t.part v
  else if n = 0x0A2 then s.syncQueue t.part (wbits v 0 16) (bit v.toNat 17)
  else if n = 0x091 then s.pdlWrite t.part v
  else if n = 0x040 ∨ n = 0x041 then s.regionWrite t.tile n v
  else if n = 0x103 then { s with dev := { s.dev with wearSel := wbits v 0 8 } }
  else if inRange n 0x0B0 0x0B8 then s.configMasks (n - 0x0B0) v
  else if inRange n 0x021 0x026 ∨ n = 0x028 ∨ n = 0x02D then s.setThread (t.store n v)
  else if inRange n 0x042 0x061 ∨ inRange n 0x0E0 0x0F0 then s.setTile t.tile ((s.tile t.tile).store n v)
  else s.setPart t.part ((s.part t.part).store n v)

/-- A `Q_SYNC` write that Newt refuses: a queue at or past COUNT, or a descriptor it cannot write (R324). -/
def State.syncRefused (s : State) (t : Thread) (n : Nat) (v : Word) : Option (Nat × Option Nat) :=
  if n ≠ 0x0A2 then none
  else if wbits v 0 16 ≥ (s.part t.part).qCount then some (0x21, none)
  else (s.syncFault? t.part (wbits v 0 16) (bit v.toNat 17)).map fun e => (e.1, some e.2)

/-- The write of a `csr.wr`: a `Q_SYNC` waits while a publish is in flight on its queue (R325). The instruction is complete
before the write acts on the instance of its own thread. -/
def csrWrCore (a : BitVec 5) (r : BitVec 11) (s : State) (t : Thread) : State :=
  let i := Instr.csrWr a r
  let v := t.reg a.toNat
  match s.syncRefused t r.toNat v with
  | some (c, x) => s.queueTrap t i c x
  | none =>
    if r.toNat = 0x0A2 ∧ s.syncWaits t.part (wbits v 0 16) then s.waitAt t i
    else (s.advance t i).csrStore { t with pc := t.nextPc i, state := .ready, wait := none } r.toNat v

/-- `csr.wr` (R380). -/
def execCsrWr (a : BitVec 5) (r : BitVec 11) (s : State) : Out :=
  issue (.csrWr a r) 0 s fun s t =>
    match csrCause t.level (csrWriteLevel r.toNat) with
    | some c => s.raise t (.csrWr a r) c (word (firstWord (.csrWr a r)).toNat)
    | none => csrWrCore a r (if csrLocal r.toNat then s else s.chargePath (s.islandOf t.tile) t.bill [0x0A]) t

/-- Registers whose writes have steps of their own. -/
def csrOwnStep (n : Nat) : Bool := decide (n = 0x001 ∨ n = 0x02A ∨ n = 0x02E ∨ n = 0x090 ∨ n = 0x0A2)

/-! ### Registers of the PF window and of Tethys (R372, R374, R379) -/

/-- A write of `DEV_PCMD` (R15, R372): accepted while the side is not busy; an unknown command completes at once with
status 5. The target of a RETIRE is the partition that owns its tile then. -/
def State.acceptCmd (s : State) (c : Control) (v : Word) : Control :=
  if c.busy then c
  else if 1 ≤ wbits v 0 8 ∧ wbits v 0 8 ≤ 0x0B then
    { c with cmd := word (wbits v 0 14), busy := true, since := s.steps
             target := if wbits v 0 8 = 0x0A then (s.tile c.arg0.toNat).owner else none }
  else { c with cmd := word (wbits v 0 14), status := 5, done := (c.done + 1) % 2 ^ 32 }

/-- A write to a register of a request side: the offsets are those of the PF window. An argument register that is written
while BUSY is 1 changes the argument of the request that stands there, since R15 does not say when arguments are latched
(DESIGN CHOICE, log 116). -/
def State.controlWrite (s : State) (c : Control) (off : Nat) (v : Word) : Control :=
  match off with
  | 0x100 => s.acceptCmd c v
  | 0x108 => { c with arg0 := v }
  | 0x110 => { c with arg1 := v }
  | _ => c

/-- A write in the PF window to a register that has no step of its own (R374, R379). ERRHEAD holds the count of
records read. -/
def State.pfWrite (s : State) (off : Nat) (v : Word) : State :=
  if off = 0x200 then { s with dev := { s.dev with errHead := v.toNat } }
  else { s with dev := { s.dev with pf := s.controlWrite s.dev.pf off v } }

/-- REGISTER_WRITE (R380): a thread's write to a control register that has no step of its own, at or above the
register's level. Thread 768 stands for the PF window, whose offset the number then is. -/
def execRegisterWrite (thread : Nat) (r : BitVec 11) (v : Word) (s : State) : Out :=
  if thread = 768 then .next (s.pfWrite r.toNat v)
  else
    match s.thread? thread with
    | none => .next s
    | some t => match csrWriteLevel r.toNat with
      | none => .next s
      | some l => .next (if l ≤ t.level ∧ csrOwnStep r.toNat = false then s.csrStore t r.toNat v else s)

/-! ### Device time (R383) -/

/-- TIME_SLEW (R383): values beyond 500,000 in size are stored saturated. -/
def execTimeSlew (v : Half) (s : State) : Out :=
  let x := max (-500000) (min 500000 (signed 32 v.toNat))
  .next { s with dev := { s.dev with slew := BitVec.ofInt 32 x } }

/-! ### Events at a thread's boundary -/

/-- ASYNC_TRAP_DELIVERY (R359): at an instruction boundary, with HND = 0. -/
def execAsyncTrapDelivery (thread : Nat) (s : State) : Out :=
  match s.thread? thread with
  | none => .next s
  | some t => .next (s.deliver t)

/-- BREAKPOINT_MATCH (R390): a Ready thread has fetched an instruction that matches and does not issue it. -/
def execBreakpointMatch (thread : Nat) (s : State) : Out :=
  match s.thread? thread with
  | none => .next s
  | some t =>
    if t.state ≠ .ready ∨ (t.pending ≠ [] ∧ t.hnd = false) then .next s
    else
      match s.fetchPair (s.begin_ t) with
      | (_, .error _) => .next s
      | (s1, .ok (w, x)) =>
        match s1.breakpoint? (s.begin_ t) (pairSeq w x t) with
        | some n => .next (s1.breakAt (s.begin_ t) n (pairSeq w x t))
        | none => .next s

/-- RECORD_BACKLOG_WRITE (R362): the waiting records that have room are written in order. -/
def execRecordBacklogWrite (part : Nat) (s : State) : Out := .next (s.flushRecords part (s.part part).backlog.length)

end Sys2Proof.Machine
end

