-- ==== Sys2Proof/Machine/Images.lean ====
section
/-! DEFINITION. The bytes of saved state: page images (R368), engine state (R369), thread contexts (R365), and the state
block of a checkpoint (R399). What the spec leaves open of their order and of fields inside a part is the model's choice
(log 117). -/

namespace Sys2Proof.Machine

/-- Bytes cut or filled with zeros to a length. -/
def fitted (n : Nat) (bs : List Byte) : List Byte := (bs ++ zeros (n - bs.length)).take n

/-! ### A page's region state (R368) -/

/-- An occupied entry or an empty one (R47, R368). -/
def tokenBytes : Option Token → List Byte
  | some t => leBytes 4 t.payload.toNat ++ leBytes 4 (sideband t + 2 ^ 31)
  | none => zeros 8

/-- Some entries of a buffer of `n`. -/
def entriesOf (n : Nat) (ts : List Token) : List Byte := (List.range n).flatMap fun k => tokenBytes ts[k]?

/-- The element state of a slot as the region state holds it, or as its alignment recorded it (R160). -/
def Page.savedElem (p : Page) (slot : Nat) : ElemReg × List Queue :=
  match p.st.recs.find? fun e => decide (e.1 = slot) with
  | some e => e.2
  | none => (tabGet {} p.st.elems slot, (List.range 4).map fun q => tabGet {} p.st.queues (queueKey slot q))

/-- The input buffers of an RSU, by column. -/
def Page.savedRsu (p : Page) (row : Nat) : List Queue :=
  match p.st.recs.find? fun e => decide (e.1 = 64 + row) with
  | some e => e.2.2
  | none => (List.range 8).map fun c => { toks := tabGet [] (tabGet {} p.st.rsus row).inputs c }

/-- An element's internal register in 16 bytes: sum or count, the poisoned bit, the token of `dup`. -/
def elemBytes (r : ElemReg) : List Byte :=
  leBytes 4 (r.sum.toNat + r.count.toNat + r.dupLeft) ++ leBytes 4 ((if r.poisoned then 1 else 0) + if r.second.isSome then 2 else 0) ++
    tokenBytes (if r.dupLeft ≠ 0 then some r.dupTok else r.second)

/-- A number of a loop index or run offset, in 8 bytes. -/
def intBytes (v : Int) : List Byte := leBytes 8 (wordInt v).toNat

/-- The saved region state of a page, 32 KiB. -/
def Page.stateBytes (p : Page) (chain : Nat) : List Byte :=
  let es := (List.range 64).map p.savedElem
  let port (k : Nat) : Port := tabGet {} p.st.ports k
  let ag (k : Nat) : Ag := tabGet {} p.st.ags k
  leBytes 8 (p.index % 2 ^ 16 + p.ordinal % 2 ^ 16 * 2 ^ 16 + p.inst % 2 ^ 32 * 2 ^ 32) ++
  leBytes 8 (p.st.flags.toNat + p.st.rnd % 8 * 2 ^ 8 + (if p.st.aligning then 2 ^ 11 else 0) + bits p.st.cutNum 10 10 * 2 ^ 12) ++
  (List.range 16).flatMap (fun k => leBytes 2 (port k).count) ++ zeros 16 ++
  es.flatMap (fun e => elemBytes e.1) ++
  es.flatMap (fun e => (List.range 4).flatMap fun q => leBytes 1 (e.2.getD q {}).turn) ++
  es.flatMap (fun e => (List.range 4).flatMap fun q => entriesOf 12 (e.2.getD q {}).toks) ++
  (List.range 8).flatMap (fun r => (List.range 8).flatMap fun c => entriesOf 4 ((p.savedRsu r).getD c {}).toks) ++
  (List.range 8).flatMap (fun r => entriesOf 8 (tabGet {} p.st.rsus r).emit) ++
  (List.range 16).flatMap (fun k => leBytes 8 (port k).slot ++ leBytes 8 (port k).cursor ++ leBytes 8 (port k).finished ++
    leBytes 8 (if (port k).isOpen then 1 else 0)) ++
  (List.range 16).flatMap (fun k => intBytes (ag k).off ++ leBytes 8 (ag k).i0 ++ leBytes 8 (ag k).i1 ++ leBytes 8 (ag k).i2 ++
    leBytes 8 (ag k).i3 ++ leBytes 8 (ag k).pos) ++
  leBytes 8 p.st.backRecs.length ++ leBytes 8 (if p.st.backRecs.length ≤ 374 then 0 else chain) ++
  entriesOf 374 (p.st.backRecs.map Prod.snd)

/-- The continuation chain of a page's back-edge record, in blocks of 4 KiB: the next block's address, then tokens. Its
address in the firmware's area is a free value (R368). -/
def Page.chainBytes (p : Page) : List Byte :=
  let more := (p.st.backRecs.map Prod.snd).drop 374
  (List.range ((more.length + 510) / 511)).flatMap fun k => leBytes 8 0 ++ entriesOf 511 (more.drop (511 * k))

/-! ### Engine state (R369) and contexts (R365) -/

/-- A macro: its cells, its scale file, its group load modes. -/
def macroBytes (m : Macro) : List Byte :=
  (List.range 0x20000).map (sparseGet 0 m.cells ·) ++
  (List.range 2048).flatMap (fun k => leBytes 2 (wordInt (sparseGet 0 m.scales k)).toNat) ++
  (List.range 4).flatMap fun g => leBytes 1 (m.modes.toArray.getD g 0)

/-- The engine state saved for a thread. -/
def SavedEngine.bytes (e : SavedEngine) (t : Thread) : List Byte :=
  let shape (k : Nat) : Shape := tabGet {} e.shapes k
  e.macros.flatMap (fun m => macroBytes m.2) ++
  leBytes 8 t.mxTcfg.toNat ++ (List.range (512 * mxCount t.mxTcfg)).map (sparseGet 0 e.columns ·) ++
  leBytes 8 e.mxFlags.toNat ++
  ((List.range 16).filter (skBank t.skTcfg)).flatMap (fun b =>
    (List.range 256).flatMap (fun w => leBytes 4 (sparseGet 0 e.banks (256 * b + w)).toNat) ++
      leBytes 4 (wordInt (((e.scales.find? fun x => decide (x.1 = b)).map Prod.snd).getD 0)).toNat) ++
  ((List.range 64).filter (skShape t.skTcfg)).flatMap (fun k =>
    leBytes 8 (shape k).ops.toNat ++ leBytes 8 (shape k).leafs.toNat ++ leBytes 8 (shape k).ctl) ++
  leBytes 8 t.skTcfg.toNat ++ e.skFlags.flatMap fun f => leBytes 1 f.2.toNat

/-- A thread context, 2 KiB, with what `TC_CTXDATA` wrote to a Stopped thread's (R365, R366). -/
def Thread.contextBytes (t : Thread) : List Byte := (List.range 256).flatMap fun k => leBytes 8 (t.savedWord k).toNat

/-- A subscription as a cut records it (R321): its actor and handle, the row position, the pass count, and the counts of slots
that it has posted and has left. -/
def Sub.bytes (u : Sub) : List Byte :=
  leBytes 2 u.actor ++ leBytes 2 u.handle ++ leBytes 4 u.mse ++ leBytes 8 u.row ++ leBytes 8 u.passes ++ leBytes 8 u.posted ++
    leBytes 8 (u.left.getD 0) ++ leBytes 8 u.desc.l.toNat

/-! ### The state block (R399) -/

/-- A cut record: the cut's number and purposes, the actors' phases and firing counts, contexts, region states, engine
state, subscriptions, and in-flight slots (R251, R252, R321). -/
def Cut.bytes (c : Cut) (inst chain : Nat) : List Byte :=
  leBytes 4 inst ++ leBytes 4 (c.num % 2 ^ 32) ++ leBytes 4 c.purposes.toNat ++ leBytes 4 (if c.forced then 1 else 0) ++
  c.actors.flatMap (fun a => leBytes 2 a.1 ++ leBytes 2 a.2.phase ++ leBytes 4 a.2.firings) ++
  c.threads.flatMap Thread.contextBytes ++
  c.pages.flatMap (fun p => p.stateBytes chain ++ p.chainBytes) ++
  c.engines.flatMap (fun e => match c.threads.find? fun t => decide (t.ordinal = e.ordinal) with
    | some t => e.bytes t
    | none => []) ++
  c.subs.flatMap Sub.bytes ++
  c.slots.flatMap fun x => leBytes 2 x.1 ++ leBytes 2 x.2.1 ++ leBytes 4 (x.2.2.2.length) ++ leBytes 8 x.2.2.1 ++ x.2.2.2

/-- The `TC_` and `CK_` registers of a partition. -/
def Partition.regBytes (p : Partition) : List Byte :=
  [p.vec, p.root, p.recRing, p.ckPeriod, p.ckTier, p.ckTierLen, p.ckTierWr, p.ckTierLim, p.ckStatus, p.ckLast, p.ckCtl].flatMap
    fun w => leBytes 8 w.toNat

/-- The state block of a checkpoint, in whole lines. -/
def Checkpoint.stateBytes (c : Checkpoint) : List Byte :=
  let bs := c.insts.flatMap (fun i => match i.ckRec with | some r => r.bytes i.num c.chain | none => []) ++
    c.queues.flatten ++ c.partState.regBytes
  fitted ((bs.length + 63) / 64 * 64) bs

end Sys2Proof.Machine
end

