-- ==== Sys2Proof/Machine/Debug.lean ====
section
/-! DEFINITION. Trace units, samples (R386 to R394), and checkpoints (R397 to R400). -/

namespace Sys2Proof.Machine

/-! ### The trace instructions (R394) -/

/-- `trc.mark` (R394). -/
def execTrcMark (a : BitVec 5) (x : BitVec 6) (s : State) : Out :=
  issue (.trcMark a x) 0 s fun s t =>
    (s.trace t 7 x.toNat t.pc t.seq (t.reg a.toNat) [(1, t.pc), (3, word x.toNat)]).advance t (.trcMark a x)

/-- `trc.frz` (R394): the freeze is due from now on, with CAUSE 4. -/
def execTrcFrz (s : State) : Out :=
  issue .trcFrz 0 s fun s t =>
    let tl := s.tile t.tile
    let s1 := if bit tl.trcCtl.toNat 0 && !tl.trcFrozen && tl.trcPost.isNone then s.setTile t.tile { tl with trcPost := some (4, 0) } else s
    s1.advance t .trcFrz

/-! ### Events of the trace unit -/

/-- TRACE_FREEZE (R389): a freeze that is due is made. -/
def execTraceFreeze (tile : Nat) (s : State) : Out :=
  let tl := s.tile tile
  .next (if tl.freezeDue then s.setTile tile (tl.traceFreeze s.dev.time) else s)

/-- TRACE_UNFREEZE (R387). -/
def execTraceUnfreeze (tile : Nat) (s : State) : Out := .next (s.setTile tile ((s.tile tile).trcStatWrite (word (2 ^ 11))))

/-- TRCDATA_READ (R387). -/
def execTrcdataRead (tile : Nat) (s : State) : Out := .next (s.setTile tile (s.tile tile).trcRead.2)

/-- The sequence number that a thread's next issue would carry (R23, R390, R392). -/
def State.nextSeq (s : State) (t : Thread) : Half :=
  match (s.fetchPair t).2 with
  | .ok (w, x) => pairSeq w x t
  | .error _ => t.seq

/-- A SAMPLE record of one thread: the cycles since it last issued are free (R392, log 4). -/
def State.sampleThread (s : State) (n : Nat) : State :=
  match s.thread? n with
  | none => s
  | some t =>
    let st := match t.state with | .ready => 0 | .waiting => 1 | .stopped => 2
    { s with fresh := s.fresh + 1 }.trace t 8 st t.pc (s.nextSeq t) (Config.freeWord s.fresh) [(1, t.pc)]

/-- SAMPLE (R392): the period of the tile has passed. -/
def execSample (tile : Nat) (s : State) : Out :=
  .next (if wbits (s.tile tile).sampleCfg 0 32 = 0 then s
         else (List.range 4).foldl (fun s k => s.sampleThread (4 * tile + k)) s)

/-! ### The start of a checkpoint (R398) -/

/-- The deadline of a CKPT cut in ns (R397). -/
def Partition.cdl (p : Partition) : Nat := 1000 * wbits p.ckPeriod 24 20

/-- Starts a checkpoint: a CKPT cut on every instance that runs; one that is stopped stands in its saved state, whose record
is charged as any cut record is (R260). -/
def State.startCheckpoint (s : State) (part : Nat) : State :=
  let p := s.part part
  let s1 := s.setPart part { p with
    ckBusy := true, ckStart := s.dev.time, ckFull := bit p.ckCtl.toNat 0, ckCtl := p.ckCtl &&& ~~~(1 : Word), ckImage := none, ckInsts := [] }
  (s1.insts.filter fun i => decide (i.part = part)).foldl (fun (s : State) i =>
    match s.inst? i.part i.num with
    | none => s
    | some j =>
      if j.runs then (s.requestCut part j.num 8 0 0 (some p.cdl)).1
      else if j.state = .ending then s
      else
        let s2 := s.chargeRecord j
        let q := s2.part part
        s2.setPart part { q with ckInsts := q.ckInsts ++ [{ j with ckRec := some (s2.frozen j {}) }] }) s1

/-- `ckpt.req` (R398): joins a checkpoint in progress. -/
def execCkptReq (s : State) : Out :=
  issue .ckptReq 1 s fun s t =>
    let s1 := s.advance t .ckptReq
    if (s.part t.part).ckBusy then s1 else s1.startCheckpoint t.part

/-- The checkpoint timer of a partition (R398): once T ms of device time have passed since the start of the previous
checkpoint, one starts, or is counted in SKIP. -/
def State.checkpointDue (s : State) (part : Nat) : State :=
  let p := s.part part
  let t := wbits p.ckPeriod 0 24
  if p.exists_ = false ∨ t = 0 ∨ s.dev.time < p.ckStart + 1000000 * t then s
  else if p.ckBusy then
    s.setPart part { p with ckStart := s.dev.time - (s.dev.time - p.ckStart) % (1000000 * t), ckSkip := (p.ckSkip + 1) % 65536
                            ckSovf := p.ckSovf || decide (p.ckSkip + 1 ≥ 65536) }
  else s.startCheckpoint part

/-- CHECKPOINT_TIMER (R398, R384). -/
def execCheckpointTimer (part : Nat) (s : State) : Out := .next (s.checkpointDue part)

/-! ### The image (R399) -/

/-- Whether a checkpoint waits for a cut of an instance. -/
def Inst.ckWaits (i : Inst) : Bool :=
  (match i.cut with | some c => bit c.purpose 3 | none => false) || (match i.pending with | some c => bit c.purpose 3 | none => false)

/-- Whether a publication belongs to the image: one made before its agent aligned, or, by no agent of an instance,
before the cuts completed. -/
def inImage (recs : List Inst) (last : Nat) (by_ : Option (Nat × Nat × Nat)) (pos : Nat) : Bool :=
  match by_ with
  | none => decide (pos < last)
  | some (part, inst, ord) =>
    match (recs.find? fun i => decide (i.part = part ∧ i.num = inst)).bind Inst.ckRec with
    | none => decide (pos < last)
    | some c => match c.pos.find? fun e => decide (e.1 = ord) with
      | some e => decide (pos < e.2)
      | none => decide (pos < c.doneAt)

/-- Walks the publications backwards to a position, the newest first: the bytes and descriptors that the image takes
from them, and the memory before them. A byte that a later publication of the image gave stands. -/
def State.imageOver (recs : List Inst) (last : Nat) :
    List (Option (Nat × Nat × Nat) × List Host.Cell × List (Nat × BitVec 16)) → Nat → Nat → Memory → List (Nat × BitVec 16) →
    List (Nat × Byte) → List (Nat × BitVec 16) → List (Nat × Byte) × List (Nat × BitVec 16) × Memory × List (Nat × BitVec 16)
  | _, _, 0, m, ds, ovl, dover => (ovl, dover, m, ds)
  | [], _, _ + 1, m, ds, ovl, dover => (ovl, dover, m, ds)
  | h :: r, pos, n + 1, m, ds, ovl, dover =>
    let in_ := inImage recs last h.1 (pos - 1)
    let ovl1 := if in_ then ovl ++ (h.2.1.filter fun c => ovl.all fun o => decide (o.1 ≠ c.1)).map fun c => (c.1, sparseGet 0 m c.1) else ovl
    let dover1 := if in_ then dover ++ (h.2.2.filter fun c => dover.all fun o => decide (o.1 ≠ c.1)).map fun c => (c.1, sparseGet 0 ds c.1) else dover
    State.imageOver recs last r (pos - 1) n (m.write h.2.1) (writeDescs ds h.2.2) ovl1 dover1

/-- The offset in a partition's image space of a physical address it owns (R400). -/
def Partition.imageOff (p : Partition) (pa : Nat) : Option Nat :=
  if pa < 0x8000000000 then (p.granules.idxOf? (pa / 2 ^ 30)).map fun k => k * 2 ^ 30 + pa % 2 ^ 30
  else if 0x8000000000000 ≤ pa ∧ pa < 0x8000000000000 + 0x200000 * 192 then
    (p.tiles.idxOf? ((pa - 0x8000000000000) / 0x200000)).map fun k => 2 ^ 48 + 0x200000 * k + (pa - 0x8000000000000) % 0x200000
  else none

/-- The physical address of an offset in the image space, if the partition has that granule or tile. -/
def Partition.imagePa (p : Partition) (off : Nat) : Option Nat :=
  if off < 2 ^ 48 then (p.granules[off / 2 ^ 30]?).map fun g => g * 2 ^ 30 + off % 2 ^ 30
  else (p.tiles[(off - 2 ^ 48) / 0x200000]?).map fun t => apertureBase t + (off - 2 ^ 48) % 0x200000

/-- The 64 KiB granules of a partition's image space (R400). -/
def Partition.allGranules (p : Partition) : List Nat :=
  List.range (p.granules.length * 2 ^ 14) ++
    (List.range p.tiles.length).flatMap fun k => (List.range 28).map fun j => (2 ^ 48 + 0x200000 * k) / 65536 + j

/-- The granules written by the publications since a position. -/
def State.writtenSince (s : State) (p : Partition) (pos : Nat) : List Nat :=
  ((s.hist.take (s.pubCount - pos)).flatMap fun h => h.2.1.filterMap fun c => (p.imageOff c.1).map (· / 65536)).dedup

/-- Consecutive granules as runs of at most 65,536, in ascending order (R400). -/
def runsOf : List Nat → List Chunk
  | [] => []
  | g :: r =>
    match runsOf r with
    | .granules off n :: rest => if off = (g + 1) * 65536 ∧ n < 65536 then .granules (g * 65536) (n + 1) :: rest else .granules (g * 65536) 1 :: .granules off n :: rest
    | cs => .granules (g * 65536) 1 :: cs

/-- The descriptors of a partition's queues, where Newt can read them (R399). -/
def State.queueDescs (s : State) (part : Nat) : List (List Byte) :=
  (List.range (s.part part).qCount).map fun q =>
    match s.newtAddr part q .read (s.descVa part q) 64 with
    | (s1, .ok pa) => s1.readBytes pa 64
    | (_, .error _) => zeros 64

/-- The log blocks of some records, each of at most 128 (R401): `n` records from `pos` on, under an identifier. -/
def logChunks (id pos n : Nat) : List Chunk := (List.range ((n + 127) / 128)).map fun k => .log id (pos + 128 * k) (min 128 (n - 128 * k))

/-- The tier bytes that some chunks of log blocks take: a header and 4 KiB each (R400, R401). -/
def logSize (cs : List Chunk) : Nat := 4160 * cs.length

/-- The image of a checkpoint whose cuts are done: the partition's queues written back first. What the log holds before
the checkpoint's first log block goes to the tier ahead of its header. -/
def State.takeImage (s : State) (part : Nat) : State :=
  let s0 := (s.queues.filter fun q => decide (q.part = part)).foldl (fun s q => (s.writeBack q false).1) s
  let p := s0.part part
  let recs := p.ckInsts
  let cuts := recs.filterMap Inst.ckRec
  let last := max (cuts.foldl (fun n c => max n c.doneAt) 0) (if cuts = [] then s.pubCount else 0)
  let first := cuts.foldl (fun n c => c.pos.foldl (fun n e => min n e.2) n) last
  let (ovl, dover, m, ds) := State.imageOver recs last (s0.hist.drop (s0.pubCount - s.pubCount)) s.pubCount (s.pubCount - first)
    s.mem s.descs [] []
  let backs := (s0.hist.take (s0.pubCount - s.pubCount)).flatMap fun h => h.2.1.map fun c => (c.1, s0.readByte c.1)
  let grs := if p.ckFull then p.allGranules else s0.writtenSince p p.ckPos
  let put (cells : List (Nat × Byte)) : List (Nat × Byte) :=
    cells.filterMap fun c => (p.imageOff c.1).bind fun o => if grs.contains (o / 65536) then some (o, c.2) else none
  let dput (cells : List (Nat × BitVec 16)) : List (Nat × BitVec 16) :=
    cells.filterMap fun c => (p.imageOff (64 * c.1)).bind fun o => if grs.contains (o / 65536) then some (o / 64, c.2) else none
  let logFirst := cuts.foldl (fun n c => c.logAt.foldl (fun n e => min n e.2) n) (s0.part part).log.length
  let ck : Checkpoint := {
    part, id := p.ckNext, prev := if p.ckFull then 0 else p.ckLast.toNat, time := s0.dev.time
    granules := grs
    mem := Memory.write [] (put m ++ put ovl.reverse ++ put backs)
    descs := writeDescs [] (dput ds ++ dput dover.reverse)
    insts := recs, threads := cuts.flatMap Cut.threads, pages := cuts.flatMap Cut.pages, subs := cuts.flatMap Cut.subs
    partState := { p with ckInsts := [] }, wrapped := (s0.teth.kek.map fun k => Config.keyWrap k p.ckptKey).getD 0, key := p.ckptKey, logPos := logFirst
    queues := s0.queueDescs part, chain := (Config.freeWord s0.fresh).toNat % 2 ^ 56
    chunks := Chunk.header (if p.ckFull then 0 else p.ckLast.toNat) s0.dev.time :: runsOf (grs.insertionSort (· ≤ ·)) ++ [.state]
    start := p.ckTierWr.toNat + logSize (logChunks 0 p.logWritten (logFirst - p.logWritten)) }
  let before := logChunks p.ckLast.toNat p.logWritten (logFirst - p.logWritten)
  { s0.setPart part { p with ckNext := p.ckNext + 1, ckImage := some (before ++ ck.chunks), ckPos := first, ckChunkPos := 0, ckInsts := []
                             logWritten := logFirst } with
    ckpts := ck :: s0.ckpts, fresh := s0.fresh + 1 }

/-! ### The tier stream (R400) -/

/-- A chunk's header (R400). -/
def chunkHead (typ id a b : Nat) : List Byte := leBytes 8 typ ++ leBytes 8 id ++ leBytes 8 a ++ leBytes 8 b ++ zeros 32

/-- A record of the order log, 32 bytes (R401). -/
def LogRec.bytes (r : LogRec) : List Byte :=
  leBytes 8 (r.typ + r.ordinal % 65536 * 2 ^ 16 + r.inst % 2 ^ 32 * 2 ^ 32) ++ leBytes 8 r.pc.toNat ++
    leBytes 8 (r.seq.toNat + r.a % 2 ^ 32 * 2 ^ 32) ++ leBytes 8 r.b.toNat

/-- The plain data of a chunk after its header, and the header's fields. A log block holds 4 KiB, of which its byte length
says how much is records. A checkpoint header holds the wrapped key where R400 reserves its last 32 bytes (R414, log 78). -/
def chunkData (p : Partition) (ck : Checkpoint) (c : Chunk) : List Byte × List Byte :=
  match c with
  | .header prev time => ((chunkHead 1 ck.id prev time).take 32 ++ leBytes 32 ck.wrapped.toNat, [])
  | .granules off n => (chunkHead 2 ck.id off n, (List.range (65536 * n)).map fun k => sparseGet 0 ck.mem (off + k))
  | .state => (chunkHead 3 ck.id ck.stateBytes.length 0, ck.stateBytes)
  | .log id pos n => (chunkHead 4 id (32 * n) pos, fitted 4096 (((p.log.drop pos).take n).flatMap LogRec.bytes))

/-- A chunk as it stands in the stream: its header, then its data under the checkpoint key. -/
def chunkBytes (p : Partition) (ck : Checkpoint) (c : Chunk) : List Byte :=
  let (h, d) := chunkData p ck c
  h ++ (List.range d.length).map (Config.tierCipher ck.key d)

/-- The cells of stream bytes at a write position, 64 bytes at a time; a piece whose translation fails is left out. -/
def State.tierCells (s : State) (part : Nat) (base len : Nat) : Nat → Nat → List Byte → State × List (Nat × Byte)
  | 0, _, _ => (s, [])
  | n + 1, wr, bs =>
    match s.translate 0 part 1 true .write (base + wr % len) 64 with
    | (s1, .error _) => s1.tierCells part base len n (wr + 64) (bs.drop 64)
    | (s1, .ok pa) =>
      let (s2, cs) := s1.tierCells part base len n (wr + 64) (bs.drop 64)
      (s2, cellsAt pa (bs.take 64) ++ cs)

/-- The virtual address of the tier. -/
def Partition.tierBase (p : Partition) : Nat := wbits p.ckTier 16 40 * 65536

/-- Writes as much of one chunk to the tier as LIM lets it, line by line, and says whether that ends it (R397, R400). -/
def State.writeChunk (s : State) (part : Nat) (ck : Checkpoint) (c : Chunk) : State × Bool :=
  let p := s.part part
  let bs := (chunkBytes p ck c).drop p.ckChunkPos
  let wr := p.ckTierWr.toNat
  let lines := min ((bs.length + 63) / 64) ((p.ckTierLim.toNat - wr) / 64)
  if p.ckTierLen = 0 ∨ lines = 0 then (s, false)
  else
    let (s1, cs) := s.tierCells part p.tierBase p.ckTierLen.toNat lines wr bs
    let s2 := s1.publish cs
    let done := decide (lines = (bs.length + 63) / 64)
    (s2.setPart part { s2.part part with ckTierWr := word (wr + 64 * lines), ckChunkPos := if done then 0 else p.ckChunkPos + 64 * lines }, done)

/-- The newest checkpoint of a partition. -/
def State.newest (s : State) (part : Nat) : Option Checkpoint := s.ckpts.find? fun c => decide (c.part = part)

/-- The stream position, identifier and key of log blocks written between checkpoints. -/
def logOwner (part : Nat) (p : Partition) : Checkpoint :=
  { part, id := p.ckLast.toNat, prev := 0, time := 0, granules := [], mem := [], descs := [], insts := [], threads := [], pages := []
    subs := [], partState := p, wrapped := 0, key := p.ckptKey, logPos := 0 }

/-- Goes on with a log block of the tier stream (R401). -/
def State.writeLog (s : State) (part pos n : Nat) : State :=
  let p := s.part part
  let (s1, done) := s.writeChunk part (logOwner part p) (.log p.ckLast.toNat pos n)
  if done then s1.setPart part { s1.part part with logBlock := none, logWritten := pos + n } else s1

/-- CHECKPOINT_IMAGE_WRITE (R398 to R401): with its cuts done the checkpoint takes its identifier and its image; then
its chunks go to the tier one by one; between checkpoints log blocks do, each with the records that stand unwritten then. -/
def execCheckpointImageWrite (part : Nat) (s : State) : Out :=
  let p := s.part part
  match p.logBlock with
  | some (pos, n) => .next (s.writeLog part pos n)
  | none =>
    if p.ckBusy then
      match p.ckImage with
      | none => .next (if s.insts.any fun i => decide (i.part = part) && i.ckWaits then s else s.takeImage part)
      | some [] => .next s
      | some (c :: r) =>
        match s.newest part with
        | none => .next s
        | some ck =>
          let (s1, done) := s.writeChunk part ck c
          .next (if done then s1.setPart part { s1.part part with ckImage := some r } else s1)
    else if p.logWritten < p.log.length ∧ p.ckTierLen ≠ 0 then
      let n := min 128 (p.log.length - p.logWritten)
      .next ((s.setPart part { p with logBlock := some (p.logWritten, n), ckChunkPos := 0 }).writeLog part p.logWritten n)
    else .next s

/-- Whether a checkpoint stands whole in the tier, where its stream was written (R400, R403). -/
def State.tierHolds (s : State) (part : Nat) (ck : Checkpoint) : Bool :=
  let p := s.part part
  let bs := ck.chunks.flatMap (chunkBytes p ck)
  decide (p.ckTierLen ≠ 0) && (List.range ((bs.length + 63) / 64)).all fun k =>
    match s.translate 0 part 1 true .read (p.tierBase + (ck.start + 64 * k) % p.ckTierLen.toNat) 64 with
    | (s1, .ok pa) => decide (s1.readBytes pa 64 = (bs.drop (64 * k)).take 64)
    | (_, .error _) => false

/-- CHECKPOINT_COMPLETE (R398): the whole image is written. -/
def execCheckpointComplete (part : Nat) (s : State) : Out :=
  let p := s.part part
  match p.ckImage with
  | some [] => .next (if p.ckBusy then s.setPart part { p with ckBusy := false, ckImage := none, ckLast := word (p.ckNext - 1) } else s)
  | _ => .next s

/-! ### A step of device time (R383, R384) -/

/-- What a forward step of device time acts on at once: every ingest deadline, one interval end, one checkpoint start in
each partition, and the `idle` timeouts that it passes. -/
def State.timeStepped (s : State) : State :=
  let s1 := if s.dev.ready then s.queues.foldl (fun s q => s.ingestDue q.part q.q (q.size + q.arrived.length)) s else s
  let s2 := if s1.dev.time / 1000000 > s1.dev.interval then s1.endInterval else s1
  let s3 := s2.partNums.foldl State.checkpointDue s2
  s3.threads.foldl (fun s e => match (s.thread? e.1).bind fun t => t.idling.map fun w => (t, w) with
    | some (t, w) => if s.dev.time ≥ w.since + 1000000 then s.advance t .idle else s
    | none => s) s3

/-- TIME_STEP (R383, R384): a forward step of device time by at most 2^31 - 1 ns. -/
def execTimeStep (ns : Nat) (s : State) : Out :=
  .next ({ s with dev := { s.dev with time := (s.dev.time + ns % 2 ^ 31) % 2 ^ 64 } } : State).timeStepped

end Sys2Proof.Machine
end

