-- ==== Sys2Proof/Machine/Partitions.lean ====
section
/-! DEFINITION. Reset and partition control (R15, R370 to R373): the commands of the PF window and of Tethys, with
resizes (R257), restores and replay (R258, R403), and retirement (R412). -/

namespace Sys2Proof.Machine

/-! ### Requests (R15, R372) -/

/-- The request registers of a side: Tethys's where `side` holds, else the PF window's. -/
def State.control (s : State) (side : Bool) : Control := if side then s.dev.teth else s.dev.pf

def State.setControl (s : State) (side : Bool) (c : Control) : State :=
  { s with dev := if side then { s.dev with teth := c } else { s.dev with pf := c } }

/-- Whether a request stands at a side with this command, partition and arguments, and the arbiter performs it next:
the older of the two sides' requests goes first (R15). -/
def State.takes (s : State) (side : Bool) (code part : Nat) (arg0 arg1 : Word) : Bool :=
  let c := s.control side
  let o := s.control (!side)
  c.busy && decide (wbits c.cmd 0 8 = code ∧ wbits c.cmd 8 6 = part ∧ c.arg0 = arg0 ∧ c.arg1 = arg1) &&
    (!o.busy || decide (c.since < o.since) || (decide (c.since = o.since) && side))

/-- A request completes with a status (R372). -/
def State.answer (s : State) (side : Bool) (status : Nat) : State :=
  let c := s.control side
  s.setControl side { c with busy := false, status, done := (c.done + 1) % 2 ^ 32 }

/-- A command as the arbiter performs it: what it changes and its status. A partition that is not there gives
status 1. -/
def arbitrate (side : Bool) (code part : Nat) (arg0 arg1 : Word) (s : State) (k : Partition → State × Nat) : Out :=
  if !(s.takes side code part arg0 arg1) then .next s
  else
    let p := s.part part
    if !p.exists_ then .next (s.answer side 1)
    else let (s1, st) := k p; .next (s1.answer side st)

/-! ### Resources -/

/-- The functions that a mask names. -/
def maskFns (m : Word) : List Nat := (List.range 64).filter fun f => bit m.toNat f

/-- Presented tiles that no partition holds, in virtual order (R9, R372). -/
def State.freeTiles (s : State) : List Nat :=
  (List.range 192).filter fun t => let tl := s.tile t; tl.present && !tl.absent && tl.owner.isNone

/-- The granules 0 to 510 that no partition holds. -/
def State.freeGranules (s : State) : List Nat :=
  (List.range 511).filter fun g => s.parts.all fun e => !(e.2.exists_ && e.2.granules.contains g)

/-- Whether device queue numbers are free for a partition. -/
def State.queuesFree (s : State) (part first n : Nat) : Bool :=
  decide (first + n ≤ 65536) && s.parts.all fun e =>
    !e.2.exists_ || decide (e.1 = part) || decide (n = 0 ∨ e.2.qCount = 0 ∨ e.2.qFirst + e.2.qCount ≤ first ∨ first + n ≤ e.2.qFirst)

/-- The lowest free contiguous range of queue numbers. -/
def State.queueRange (s : State) (part n : Nat) : Option Nat :=
  ((0 :: (s.parts.filter fun e => e.2.exists_).map fun e => e.2.qFirst + e.2.qCount).insertionSort (· ≤ ·)).find? fun f => s.queuesFree part f n

/-- A range of physical memory is zeroed and its descriptors are cleared, as one publication (R371). -/
def State.zeroRange (s : State) (lo n : Nat) : State :=
  s.publish ((s.mem.filter fun c => decide (lo ≤ c.1 ∧ c.1 < lo + n)).map fun c => (c.1, (0 : Byte)))
    ((s.descs.filter fun d => decide (lo / 64 ≤ d.1 ∧ d.1 < (lo + n) / 64)).map fun d => (d.1, (0 : BitVec 16)))

/-- A tile is cleared: its units, its trace unit, its stores and its instruction cache (R261, R286, R371, R387). -/
def State.clearTile (s : State) (t : Nat) : State :=
  let tl := s.tile t
  let s1 := (s.zeroRange (apertureBase t) 0x200000).setTile t { present := tl.present, absent := tl.absent, owner := tl.owner }
  { s1 with
    pages := s1.pages.map fun e => if e.2.region = some t then (e.1, { e.2 with region := none }) else e
    icache := s1.icache.filter fun l => decide (l.tile ≠ t) }

/-- A tile passes to a partition, or to none. -/
def State.giveTile (s : State) (t : Nat) (owner : Option Nat) : State :=
  let s1 := s.clearTile t
  s1.setTile t { s1.tile t with owner }

/-- The partition's lines and translations are dropped (R371). -/
def State.dropTlb (s : State) (part : Nat) : State :=
  { s with tlb := s.tlb.filter (fun e => decide (e.part ≠ part)), icache := s.icache.filter fun l => decide (l.part ≠ part) }

/-- A function joins a partition, with its account as R373 says. -/
def State.joinFn (s : State) (part f : Nat) : State :=
  let p := s.part part
  let s1 := { s with funcs := tabSet s.funcs f { s.func f with part := some part } }
  let a := s1.account f
  let s2 := if p.pool = allOnes then s1 else s1.setAccount f { a with quota := 0, status := a.status ||| 1 }
  s2.setPart part { p with functions := ((f :: p.functions).insertionSort (· ≤ ·)).dedup }

/-- A function leaves its partition: what the meters hold for it is flushed, since no event changes the account from then
on; a limited balance returns to the pool, the account's settings to their reset values (R336, R373). -/
def State.leaveFn (s0 : State) (part f : Nat) : State :=
  let s := s0.flushAccount f
  let p := s.part part
  let a := s.account f
  let pool := if p.pool = allOnes ∨ a.quota = allOnes then p.pool else word (min (p.pool.toNat + a.quota.toNat) (2 ^ 64 - 2))
  let s1 := { s with funcs := tabSet s.funcs f { s.func f with part := none } }
  let s2 := s1.setAccount f { a with quota := allOnes, reserve := 1000000, status := 0, low := 0, weight := 1, lowDue := false, exhDue := false, cutBy := none }
  s2.setPart part { p with pool, functions := p.functions.filter (· ≠ f) }

/-- Every instance of a partition ends with code 6 at once (R235, R372). -/
def State.endAll (s : State) (part : Nat) : State :=
  (s.instsOf part).foldl (fun s i =>
    let s1 := if i.state = .ending then s else s.instEnd part i.num
    let s2 := (s1.evictAll part i.num fun _ => false)
    let s3 : State := { s2 with
      subs := s2.subs.filter fun u => ¬ (u.name.part = part ∧ u.name.inst = i.num)
      threads := s2.threads.filter fun e => ¬ (e.2.part = part ∧ e.2.inst = i.num)
      pages := s2.pages.filter fun e => ¬ (e.2.part = part ∧ e.2.inst = i.num)
      insts := s2.insts.filter fun j => ¬ (j.part = part ∧ j.num = i.num) }
    s3.doneWord part i.doneVa i.level i.acct 0 (6 * 2 ^ 32 + i.num) i.num) s

/-- The queue cache of a partition and the input held for it are dropped. -/
def State.dropQueues (s : State) (part : Nat) : State :=
  { s with
    queues := s.queues.filter fun q => decide (q.part ≠ part)
    held := s.held.filter fun h => match h with
      | .publication p _ | .ingest p _ _ _ | .sequence p _ _ _ _ | .requeue p _ _ => decide (p ≠ part)
      | .write fn _ _ | .notify fn _ => decide ((s.func fn).part ≠ some part)
      | .arc link _ _ => !(bit (s.part part).links link) }

/-! ### CREATE, DESTROY, RESET -/

/-- CREATE (R371, R372). -/
def State.createPart (s : State) (part : Nat) (arg0 arg1 : Word) : State × Nat :=
  let fns := maskFns arg1
  let nt := wbits arg0 0 8
  let ng := wbits arg0 8 16
  let nq := wbits arg0 24 16
  let tiles := s.freeTiles.take nt
  let grs := s.freeGranules.take ng
  if (s.part part).exists_ then (s, 3)
  else if fns = [] ∨ fns.any (fun f => (s.func f).part.isSome) then (s, 4)
  else
    match s.queueRange part nq with
    | none => (s, 2)
    | some first =>
      if tiles.length < nt ∨ grs.length < ng then (s, 2)
      else
        let p : Partition := { exists_ := true, tiles, granules := grs, qFirst := if nq = 0 then 0 else first, qCount := nq
                               ckStart := s.dev.time, tenantKey := Config.random s.fresh, ckptKey := Config.random (s.fresh + 1) }
        let s1 := { s.setPart part p with fresh := s.fresh + 2 }
        let s2 := tiles.foldl (fun s t => s.giveTile t (some part)) s1
        let s3 := grs.foldl (fun s g => s.zeroRange (g * 2 ^ 30) (2 ^ 30)) s2
        (fns.foldl (fun s f => s.joinFn part f) s3, 0)

/-- CREATE: status 3 where the partition exists. -/
def execCreate (side : Bool) (part : Nat) (arg0 arg1 : Word) (s : State) : Out :=
  if !(s.takes side 0x01 part arg0 arg1) then .next s
  else let (s1, st) := s.createPart part arg0 arg1; .next (s1.answer side st)

/-- The end of a partition: its instances, its memory, its keys, its resources (R371, R372). -/
def State.destroyPart (s : State) (part : Nat) : State :=
  let p := s.part part
  let s1 := (s.endAll part).dropQueues part
  let s2 := p.granules.foldl (fun s g => s.zeroRange (g * 2 ^ 30) (2 ^ 30)) s1
  let s3 := p.tiles.foldl (fun s t => s.giveTile t none) s2
  let s4 := p.functions.foldl (fun s f => s.leaveFn part f) s3
  { s4.dropTlb part with parts := tabErase s4.parts part, arrays := s4.arrays.filter fun a => decide (a.1 ≠ part) }

/-- DESTROY. -/
def execDestroy (side : Bool) (part : Nat) (arg0 arg1 : Word) (s : State) : Out :=
  arbitrate side 0x02 part arg0 arg1 s fun _ => (s.destroyPart part, 0)

/-- RESET of a partition: instances ended, tiles, queue cache and record backlog cleared, allocation and key kept. -/
def State.resetPart (s : State) (part : Nat) : State :=
  let p := s.part part
  let s1 := (s.endAll part).dropQueues part
  let s2 := (p.tiles.foldl (fun s t => s.clearTile t) s1).dropTlb part
  let q := s2.part part
  s2.setPart part { q with backlog := [], owed := [], ckBusy := false, ckImage := none, ckChunkPos := 0, ckInsts := [], logBlock := none
                           ckReplay := false, replay := [], replayAt := [], resizing := none }

/-- PARTITION_RESET. -/
def execPartitionReset (side : Bool) (part : Nat) (arg0 arg1 : Word) (s : State) : Out :=
  arbitrate side 0x06 part arg0 arg1 s fun _ => (s.resetPart part, 0)

/-! ### ASSIGN, RELEASE, SETPOOL, ARCS, ENSET -/

/-- ASSIGN (R373). -/
def execAssign (side : Bool) (part : Nat) (arg0 arg1 : Word) (s : State) : Out :=
  arbitrate side 0x04 part arg0 arg1 s fun p =>
    let fns := maskFns arg1
    if fns.any fun f => (s.func f).part.any fun q => decide (q ≠ part) then (s, 4)
    else ((fns.filter fun f => !(p.functions.contains f)).foldl (fun s f => s.joinFn part f) s, 0)

/-- RELEASE (R373): the functions of the mask that the partition holds. -/
def execRelease (side : Bool) (part : Nat) (arg0 arg1 : Word) (s : State) : Out :=
  arbitrate side 0x05 part arg0 arg1 s fun p =>
    let fns := (maskFns arg1).filter p.functions.contains
    if s.threads.any fun e => fns.contains e.2.acct then (s, 3)
    else if p.functions.all fns.contains then (s, 4)
    else (fns.foldl (fun s f => s.leaveFn part f) s, 0)

/-- SETPOOL. -/
def execSetpool (side : Bool) (part : Nat) (arg0 arg1 : Word) (s : State) : Out :=
  arbitrate side 0x08 part arg0 arg1 s fun p => (s.setPart part { p with pool := arg1 }, 0)

/-- ARCS: the mask gives the links the partition has from now on. -/
def execArcs (side : Bool) (part : Nat) (arg0 arg1 : Word) (s : State) : Out :=
  arbitrate side 0x09 part arg0 arg1 s fun p =>
    let m := wbits arg0 0 12
    if s.parts.any fun e => e.2.exists_ && decide (e.1 ≠ part) && decide (Nat.land e.2.links m ≠ 0) then (s, 3)
    else (s.setPart part { p with links := m }, 0)

/-- ENSET (R351, R372): `en.set` as level S of the partition; every case in which it would trap is status 4. -/
def execEnset (side : Bool) (part : Nat) (arg0 arg1 : Word) (s : State) : Out :=
  arbitrate side 0x0B part arg0 arg1 s fun p =>
    let item := wbits arg0 0 4
    let acct := wbits arg0 4 7
    if wbits arg0 11 53 ≠ 0 ∨ item > 11 ∨ item = 8 ∨ item = 9 ∨ item = 10 ∨ acct ≥ 64 ∨ !(p.functions.contains acct) then (s, 4)
    else match s.energySet part item acct arg1 with
      | .error _ => (s, 4)
      | .ok s1 => (s1, 0)

/-! ### RESIZE (R257) and RETIRE (R412) -/

/-- A RESIZE cut on every instance of a partition. The deadline is the requester's (R21, R255), which no field of the
request holds: a free value (log 81). -/
def State.resizeCuts (s0 : State) (part : Nat) : State :=
  let s : State := { s0 with fresh := s0.fresh + 1 }
  (s.instsOf part).foldl (fun s i => if i.runs then (s.requestCut part i.num 16 0 0 (some (Config.resizeDeadline s0.fresh))).1 else s) s

/-- Whether a RESIZE cut of a partition is still to complete. -/
def State.resizeWaits (s : State) (part : Nat) : Bool :=
  (s.instsOf part).any fun i => i.cut.any (fun c => bit c.purpose 4) || i.pending.any fun c => bit c.purpose 4

/-- A tile is retired (R412): its island is switched off; a spare of its die is presented under the same number, else
the number is absent; a RETIRE record is written, for the partition that owned the tile (R378). -/
def State.retireTile (s : State) (owner : Option Nat) (tile : Nat) : State :=
  let die := dieOf tile
  let d := s.dev
  let spare := decide ((if die = 0 then d.spares0 else d.spares1) > 0)
  let island := s.islandOf tile
  let built := (List.range 104).find? fun k => decide (d.offered.contains (104 * die + k)) && decide (¬ (if die = 0 then d.good0 else d.good1).contains k)
  let d1 : Device := { d with
    degraded := true
    points := tabSet d.points island 0
    retired := island :: d.retired
    retireDue := d.retireDue.filter (· ≠ tile)
    offered := d.offered.filter (· ≠ island)
    retired0 := if die = 0 then d.retired0 + 1 else d.retired0
    retired1 := if die = 1 then d.retired1 + 1 else d.retired1
    spares0 := if die = 0 ∧ spare then d.spares0 - 1 else d.spares0
    spares1 := if die = 1 ∧ spare then d.spares1 - 1 else d.spares1
    good0 := if die = 0 then (match built with | some k => d.good0.set tile k | none => d.good0) else d.good0
    good1 := if die = 1 then (match built with | some k => d.good1.set (tile - 96) k | none => d.good1) else d.good1 }
  let s1 := { s with dev := d1 }
  let s2 := s1.setTile tile { s1.tile tile with present := spare, absent := !spare, owner := none }
  -- The numbering of the die's slices changes, and they drop every entry (R143).
  let s3 := if spare then s2 else { s2 with tlb := s2.tlb.filter fun e => decide (dieOf e.slice ≠ die) }
  { s3 with fresh := s3.fresh + 1 }.errorRecord owner 0x94 (Config.freeWord s3.fresh)

/-- The resize itself, once every cut is done (R257 steps 1 to 5). -/
def State.finishResize (s : State) (part : Nat) (r : Resize) : State :=
  let p := s.part part
  let gone := p.tiles.filter fun t => !(r.tiles.contains t)
  let come := r.tiles.filter fun t => !(p.tiles.contains t)
  let more := r.granules.filter fun g => !(p.granules.contains g)
  let s1 := (gone.flatMap fun t => (s.threadsOn t).filter fun u => decide (u.part = part)).foldl State.unhome s
  -- A footprint whose actor has no thread left moves nowhere.
  let s1 : State := { s1 with insts := s1.insts.map fun i =>
    if i.part = part then { i with actors := i.actors.map fun x => if gone.contains x.tile then { x with tile := 999 } else x } else i }
  let q := s1.part part
  let s2 := s1.setPart part { q with tiles := r.tiles, granules := r.granules, qCount := r.queues, resizing := none }
  let s3 := gone.foldl (fun s t => s.giveTile t none) s2
  let s4 := come.foldl (fun s t => s.giveTile t (some part)) s3
  let s5 := more.foldl (fun s g => s.zeroRange (g * 2 ^ 30) (2 ^ 30)) s4
  let s6 := match r.retire with | some t => s5.retireTile (some part) t | none => s5
  let s7 := (s6.instsOf part).foldl (fun s i =>
    match s.inst? part i.num with
    | none => s
    | some i =>
      if i.state = .ending then s
      else if i.resizeWait then s.runHomed part i.num
      else match s.rehome part i.num with
        | some s1 => s1
        | none => s.setInst { i with state := .suspendedAstore }) s6
  match r.side with | some b => s7.answer b 0 | none => s7

/-- The tiles of a resize to `n` tiles: the lowest free ones are added, the highest are given up. -/
def State.resizeTiles (s : State) (p : Partition) (n : Nat) : Option (List Nat) :=
  if n ≤ p.tiles.length then some (p.tiles.take n)
  else
    let add := s.freeTiles.take (n - p.tiles.length)
    if add.length < n - p.tiles.length then none else some ((p.tiles ++ add).insertionSort (· ≤ ·))

/-- Starts a resize, or goes on with it once its cuts are done. -/
def State.resizeStep (s : State) (part : Nat) (r : Resize) : State :=
  let p := s.part part
  match p.resizing with
  | some x => if s.resizeWaits part then s else s.finishResize part x
  | none =>
    let s1 := (s.setPart part { p with resizing := some r }).resizeCuts part
    if s1.resizeWaits part then s1 else s1.finishResize part r

/-- RESIZE (R257, R372): its first step starts the cuts, and the step after they are done resizes. -/
def execResize (side : Bool) (part : Nat) (arg0 arg1 : Word) (s : State) : Out :=
  if !(s.takes side 0x03 part arg0 arg1) then .next s
  else
    let p := s.part part
    let ng := wbits arg0 8 16
    let nq := wbits arg0 24 16
    if !p.exists_ then .next (s.answer side 1)
    else if p.resizing.isSome then .next (s.resizeStep part ⟨[], [], 0, some side, none⟩)
    else if ng < p.granules.length then .next (s.answer side 4)
    else
      let add := s.freeGranules.take (ng - p.granules.length)
      match s.resizeTiles p (wbits arg0 0 8) with
      | none => .next (s.answer side 2)
      | some tiles =>
        if add.length < ng - p.granules.length ∨ !(s.queuesFree part p.qFirst nq) then .next (s.answer side 2)
        else .next (s.resizeStep part { tiles, granules := p.granules ++ add, queues := nq, side := some side })

/-- RETIRE (R372, R412): a tile that no partition holds is retired at once. Where a request performed before removed the
partition that owned the tile when this one was accepted, there is no such partition and nothing changes (R15). -/
def execRetire (side : Bool) (part : Nat) (arg0 arg1 : Word) (s : State) : Out :=
  if !(s.takes side 0x0A part arg0 arg1) then .next s
  else
    let tile := arg0.toNat
    let tl := s.tile tile
    if (s.control side).target.any fun p => !(s.part p).exists_ then .next (s.answer side 1)
    else if tile ≥ 192 ∨ !tl.present then .next (s.answer side 4)
    else match tl.owner with
      | none => .next ((s.retireTile none tile).answer side 0)
      | some own =>
        let p := s.part own
        .next (s.resizeStep own { tiles := p.tiles.filter (· ≠ tile), granules := p.granules, queues := p.qCount, side := some side, retire := some tile })

/-- The device monitor retires the first tile that is due (R410, R412): its partition is resized without it first. It waits
for READY, as every use of the part does. -/
def State.monitorRetire (s : State) : State :=
  match s.dev.retireDue with
  | [] => s
  | tile :: rest =>
    let tl := s.tile tile
    if !s.dev.ready then s
    else if !tl.present then { s with dev := { s.dev with retireDue := rest } }
    else match tl.owner with
      | none => s.retireTile none tile
      | some own =>
        let p := s.part own
        s.resizeStep own { tiles := p.tiles.filter (· ≠ tile), granules := p.granules, queues := p.qCount, side := none, retire := some tile }

/-! ### RESTORE and replay (R258, R403) -/

/-- The chain of checkpoints from the last full one up to the given one, oldest first (R403). -/
def State.chain (s : State) (part : Nat) : Nat → Nat → Option (List Checkpoint)
  | 0, _ => none
  | n + 1, id =>
    match s.ckpts.find? fun c => decide (c.part = part ∧ c.id = id) with
    | none => none
    | some c => if c.prev = 0 then some [c] else (s.chain part n c.prev).map (· ++ [c])

/-- The image of a chain: each checkpoint's granules take the place of the earlier ones. -/
def chainImage (cs : List Checkpoint) : Memory × List (Nat × BitVec 16) :=
  cs.foldl (fun im c =>
    ((im.1.filter fun e => !(c.granules.contains (e.1 / 65536))) ++ c.mem,
     (im.2.filter fun e => !(c.granules.contains (e.1 / 1024))) ++ c.descs)) ([], [])

/-- The back-edge slots that a cut recorded, supplied in order ahead of the ring's later slots, whose marker counts
as taken (R252): the bytes, and the producer's count in both control blocks. -/
def State.resupply (s : State) (i : Inst) (c : Cut) : State :=
  if c.forced then s
  else
    (s.backInputs i).foldl (fun s e =>
      let (a, h, t) := e
      let hd := t.handle h
      let start := hd.l.toNat + hd.p
      let mine := c.slots.filter fun x => decide (x.1 = a ∧ x.2.1 = h)
      let count := start + mine.length
      let cells := mine.flatMap fun x => cellsAt (hd.slotPa t.tile x.2.2.1) x.2.2.2
      let counter := leBytes 8 (count % 2 ^ 64)
      let own := cellsAt (apertureBase t.tile + hd.lrcb) counter
      let other := if hd.peerKind = 0 then cellsAt (apertureBase hd.peer + hd.prcb + 8) counter else []
      let s1 := s.publish (cells ++ own ++ other)
      match i.ringOf a h with
      | some (_, r, _) =>
        { s1 with threads := s1.threads.map fun (u : Nat × Thread) =>
            if u.2.part = i.part ∧ u.2.inst = i.num ∧ u.2.worker = false ∧ u.2.actor = r.prod then
              (u.1, { u.2 with handles := u.2.handles.map fun p =>
                if p.bound ∧ p.role = 1 ∧ p.base = hd.base ∧ p.lrcb = hd.prcb ∧ p.l.toNat = count + 1 then { p with l := word count } else p })
            else u }
      | none => s1) s

/-- The actors as a cut recorded them; one that took a mode starts its firings again (R251, R253), and the frozen alignment of
a forced cut goes on in its MODE continuation (R255). -/
def restoredActors (i : Inst) (c : Cut) : List Actor :=
  let again := bit c.purpose 0 && !c.forced
  i.actors.mapIdx fun k x =>
    let y := ((c.actors.find? fun e => decide (e.1 = k)).map Prod.snd).getD x
    { y with
      phase := if again then 0 else y.phase, firings := if again then 0 else y.firings
      aligned := c.forced && y.aligned, markStep := if c.forced then y.markStep else 0
      markOut := if c.forced then y.markOut else [], tile := if x.kind = 0 ∨ x.kind = 3 then 999 else x.tile }

/-- The saved engine state of a recorded thread, with the bytes and the line descriptors that the image holds of its footprint
and its spill range (R61, R82, R257). A thread that had no tile brings its own. -/
def SavedEngine.fromImage (e : SavedEngine) (old : Partition) (im : Memory × List (Nat × BitVec 16)) (i : Inst) (c : Cut) : SavedEngine :=
  match c.threads.find? fun t => decide (t.ordinal = e.ordinal) with
  | none => e
  | some t =>
    if t.homeless then e
    else match old.imageOff (apertureBase t.tile) with
    | none => { e with tile := t.tile }
    | some off =>
      let x := i.actors.getD t.actor {}
      let lo := wbits t.spill 18 18
      let hi := wbits t.spill 36 18
      { e with
        tile := t.tile
        store := (im.1.filter fun m => decide ((off + x.alo ≤ m.1 ∧ m.1 < off + x.ahi) ∨
          (off + cStoreOff + lo ≤ m.1 ∧ m.1 < off + cStoreOff + hi))).map fun m => (m.1 - off, m.2)
        descs := (im.2.filter fun d => decide ((off + x.alo) / 64 ≤ d.1 ∧ d.1 < (off + x.ahi) / 64)).map fun d => (d.1 - off / 64, d.2) }

/-- A recorded thread stands Stopped without a home; what is owed to its record names it by its new number. -/
def State.addThread (forced : Bool) (s : State) (t : Thread) : State :=
  let n := s.homelessNum
  let p := s.part t.part
  let s1 := s.setPart t.part { p with owed := p.owed.map fun o => if t.recordId = o.1 ∧ o.1 ≠ 0 then (o.1, match o.2 with
    | .region _ x => .region n x
    | .thread _ => .thread n) else o }
  s1.setThread { t with num := n, state := .stopped, aligned := forced && t.aligned, region := none, buf := [] }

/-- An instance comes back from its cut record: its threads without homes, with the stores of the image. `i` is the instance
as it stood when its cut was done: its mode, and the continuation that a forced MODE cut left (R255). -/
def State.restoreInst (s : State) (old : Partition) (im : Memory × List (Nat × BitVec 16)) (i : Inst) (c : Cut) : State :=
  let i1 := { i with
    state := .stopped, cut := none, pending := none, ckRec := none
    saved := c.engines.map fun e => e.fromImage old im i c
    resizeWait := false, stoppedSince := s.dev.elapsed, actors := restoredActors i c }
  let s1 := { s with insts := s.insts ++ [i1] }
  let s2 := c.threads.foldl (State.addThread c.forced) s1
  let s3 := c.pages.foldl (fun (s : State) p =>
    { s.setPage { p with id := s.pageNext, region := none, lastRegion := none } with pageNext := s.pageNext + 1 }) s2
  let owner (u : Sub) : Option Nat := ((s3.threadsOf i.part i.num).find? fun t => decide (t.ordinal = u.name.ordinal)).map Thread.num
  let s4 : State := { s3 with subs := s3.subs ++ c.subs.map fun (u : Sub) =>
    { u with id := u.id + s3.nextCmd, thread := u.thread.bind fun _ => owner u, name := { u.name with thread := (owner u).getD u.name.thread } } }
  let s5 : State := { s4 with nextCmd := s4.nextCmd + s4.nextCmd }
  match s5.rehome i.part i.num with
  | none => s5.setInst { i1 with state := .suspendedAstore }
  | some s6 => match s6.inst? i.part i.num with
    | some j => s6.resupply j c
    | none => s6

/-- Whether a log record comes again in a replay: an agent's events from its alignment on, any other from the
completion of the cuts on (R399, R403). -/
def replays (recs : List Inst) (pos : Nat) (r : LogRec) : Bool :=
  let cuts := recs.filterMap Inst.ckRec
  let done := cuts.foldl (fun n c => max n c.logDone) 0
  match (recs.find? fun i => decide (i.num = r.inst)).bind Inst.ckRec with
  | some c =>
    if r.ordinal = 0xFFFF then decide (c.logDone ≤ pos)
    else match c.logAt.find? fun e => decide (e.1 = r.ordinal) with
      | some e => decide (e.2 ≤ pos)
      | none => decide (c.logDone ≤ pos)
  | none => decide (done ≤ pos)

/-- Puts a checkpoint back (R258, R403): memory and descriptors, the `TC_` and `CK_` registers, the instances; then
each runs that ran at the cut. -/
def State.restorePart (s : State) (part : Nat) (cs : List Checkpoint) (ck : Checkpoint) : State :=
  let s0 := s.resetPart part
  let p := s0.part part
  let im := chainImage cs
  let s1 := p.granules.foldl (fun s g => s.zeroRange (g * 2 ^ 30) (2 ^ 30)) s0
  let s2 := s1.publish (im.1.filterMap fun c => (p.imagePa c.1).map fun a => (a, c.2))
    (im.2.filterMap fun d => (p.imagePa (64 * d.1)).map fun a => (a / 64, d.2))
  let o := ck.partState
  let again := bit p.ckCtl.toNat 2
  -- The log as it stands in the blocks of the tier stream.
  let log := ((List.range p.logWritten).zip p.log).filter fun e => decide (ck.logPos ≤ e.1) && replays ck.insts e.1 e.2
  let s3 := s2.setPart part { s2.part part with
    vec := o.vec, root := o.root, recRing := o.recRing, recNext := max o.recNext p.recNext, owed := o.owed
    ckPeriod := o.ckPeriod, ckTier := o.ckTier, ckTierLen := o.ckTierLen, ckTierLim := o.ckTierLim, ckCtl := o.ckCtl
    ckLast := word ck.id, ckStart := s.dev.time
    -- A replay gives its launches the numbers that they had (R404).
    instNext := if again then o.instNext else max o.instNext p.instNext
    replay := if again then log.map Prod.snd else [], replayAt := if again then log.map Prod.fst else []
    replayPos := (if again then log.map Prod.fst else []).headD ck.logPos, ckReplay := again && !log.isEmpty }
  let s4 := ck.insts.foldl (fun s i => match i.ckRec with | some c => s.restoreInst o im i c | none => s) s3
  ck.insts.foldl (fun s i =>
    match s.inst? part i.num with
    | none => s
    | some j =>
      if j.state = .suspendedAstore then s
      else if i.state = .running ∨ i.state = .cutting then s.runInst part i.num
      else s.setInst { j with state := i.state, schedStopped := i.schedStopped }) s4

/-- Whether a key-encryption key unwraps the key in a checkpoint's header (R414, log 16). -/
def Checkpoint.unwraps (c : Checkpoint) (kek : Nat) : Bool := decide (c.wrapped = Config.keyWrap kek c.key)

/-- RESTORE (R372, R403, R414): status 4 where an image of the chain does not stand whole in the tier, or a key does not
unwrap. -/
def execRestore (side : Bool) (part : Nat) (arg0 arg1 : Word) (s : State) : Out :=
  arbitrate side 0x07 part arg0 arg1 s fun _ =>
    match s.chain part (s.ckpts.length + 1) arg0.toNat with
    | none => (s, 4)
    | some cs =>
      match cs.getLast? with
      | none => (s, 4)
      | some ck =>
        if !(cs.all fun c => s.teth.kek.any c.unwraps) ∨ !(cs.all (s.tierHolds part)) then (s, 4)
        else (s.restorePart part cs ck, 0)

end Sys2Proof.Machine
end

