-- ==== Sys2Proof/Machine/Scalar.lean ====
section
/-! DEFINITION. The scalar instructions of majors 0x00 to 0x08 (R92 to R99). -/

namespace Sys2Proof.Machine

/-- A register instruction of two sources: its result goes to d (R93). -/
def alu2 (i : Instr) (d a b : BitVec 5) (f : Word → Word → Word) (s : State) : Out :=
  issue i 0 s fun s t => s.result t i d (f (t.reg a.toNat) (t.reg b.toNat))

/-- A register instruction of one source (R93). -/
def alu1 (i : Instr) (d a : BitVec 5) (f : Word → Word) (s : State) : Out :=
  issue i 0 s fun s t => s.result t i d (f (t.reg a.toNat))

/-- A register instruction with a further charge of its class (R92). -/
def aluCharged (i : Instr) (cls : Nat) (d a b : BitVec 5) (f : Word → Word → Word) (s : State) : Out :=
  issue i 0 s fun s t => (s.chargeThread t cls 1).result t i d (f (t.reg a.toNat) (t.reg b.toNat))

/-- The high half of the signed 128-bit product (R93). -/
def mulHigh (a b : Word) : Word := wordInt (a.toInt * b.toInt / (2 : Int) ^ 64)

/-- Signed division, truncating toward zero, with the results R94 defines. -/
def divide (a b : Word) : Word :=
  if b = 0 then allOnes else if a.toInt = -(2 : Int) ^ 63 ∧ b.toInt = -1 then a else wordInt (Int.tdiv a.toInt b.toInt)

/-- Signed remainder with the sign of a (R94). -/
def remainder (a b : Word) : Word :=
  if b = 0 then a else if a.toInt = -(2 : Int) ^ 63 ∧ b.toInt = -1 then 0 else wordInt (Int.tmod a.toInt b.toInt)

/-- Counts of leading zeros, trailing zeros and ones (R93). -/
def leadingZeros (a : Word) : Word := word (((List.range 64).map fun k => a.getLsbD (63 - k)).takeWhile (· = false)).length
def trailingZeros (a : Word) : Word := word (((List.range 64).map fun k => a.getLsbD k).takeWhile (· = false)).length
def ones (a : Word) : Word := word ((List.range 64).filter fun k => a.getLsbD k).length

def execAdd (d a b : BitVec 5) (s : State) : Out := alu2 (.add d a b) d a b (· + ·) s
def execSub (d a b : BitVec 5) (s : State) : Out := alu2 (.sub d a b) d a b (· - ·) s
def execMul (d a b : BitVec 5) (s : State) : Out := aluCharged (.mul d a b) 0x01 d a b (· * ·) s
def execMulh (d a b : BitVec 5) (s : State) : Out := aluCharged (.mulh d a b) 0x01 d a b mulHigh s
def execDiv (d a b : BitVec 5) (s : State) : Out := aluCharged (.div d a b) 0x02 d a b divide s
def execRem (d a b : BitVec 5) (s : State) : Out := aluCharged (.rem d a b) 0x02 d a b remainder s
def execAnd (d a b : BitVec 5) (s : State) : Out := alu2 (.and d a b) d a b (· &&& ·) s
def execOr (d a b : BitVec 5) (s : State) : Out := alu2 (.or d a b) d a b (· ||| ·) s
def execXor (d a b : BitVec 5) (s : State) : Out := alu2 (.xor d a b) d a b (· ^^^ ·) s
def execAndn (d a b : BitVec 5) (s : State) : Out := alu2 (.andn d a b) d a b (fun x y => x &&& ~~~y) s
def execShl (d a b : BitVec 5) (s : State) : Out := alu2 (.shl d a b) d a b (fun x y => x <<< (y.toNat % 64)) s
def execShr (d a b : BitVec 5) (s : State) : Out := alu2 (.shr d a b) d a b (fun x y => x >>> (y.toNat % 64)) s
def execSar (d a b : BitVec 5) (s : State) : Out := alu2 (.sar d a b) d a b (fun x y => x.sshiftRight (y.toNat % 64)) s
def execMin (d a b : BitVec 5) (s : State) : Out := alu2 (.min d a b) d a b (fun x y => if x.slt y then x else y) s
def execMax (d a b : BitVec 5) (s : State) : Out := alu2 (.max d a b) d a b (fun x y => if x.slt y then y else x) s
def execMinu (d a b : BitVec 5) (s : State) : Out := alu2 (.minu d a b) d a b (fun x y => if x.ult y then x else y) s
def execMaxu (d a b : BitVec 5) (s : State) : Out := alu2 (.maxu d a b) d a b (fun x y => if x.ult y then y else x) s
def execClz (d a : BitVec 5) (s : State) : Out := alu1 (.clz d a) d a leadingZeros s
def execCtz (d a : BitVec 5) (s : State) : Out := alu1 (.ctz d a) d a trailingZeros s
def execPopc (d a : BitVec 5) (s : State) : Out := alu1 (.popc d a) d a ones s
def execSext8 (d a : BitVec 5) (s : State) : Out := alu1 (.sext8 d a) d a (fun x => sextTo 64 (x.setWidth 8)) s
def execSext16 (d a : BitVec 5) (s : State) : Out := alu1 (.sext16 d a) d a (fun x => sextTo 64 (x.setWidth 16)) s
def execSext32 (d a : BitVec 5) (s : State) : Out := alu1 (.sext32 d a) d a (fun x => sextTo 64 (x.setWidth 32)) s
def execZext8 (d a : BitVec 5) (s : State) : Out := alu1 (.zext8 d a) d a (fun x => (x.setWidth 8).setWidth 64) s
def execZext16 (d a : BitVec 5) (s : State) : Out := alu1 (.zext16 d a) d a (fun x => (x.setWidth 16).setWidth 64) s
def execZext32 (d a : BitVec 5) (s : State) : Out := alu1 (.zext32 d a) d a (fun x => (x.setWidth 32).setWidth 64) s

/-- `addi` (R95). -/
def execAddi (d a : BitVec 5) (imm : BitVec 16) (s : State) : Out := alu1 (.addi d a imm) d a (· + sextTo 64 imm) s

/-- `movi` (R95). -/
def execMovi (d : BitVec 5) (imm : BitVec 16) (s : State) : Out := alu1 (.movi d imm) d 0 (fun _ => sextTo 64 imm) s

/-- `movhi` reads its destination (R95, R91). -/
def execMovhi (d : BitVec 5) (imm : BitVec 16) (s : State) : Out :=
  alu1 (.movhi d imm) d d (fun x => x <<< 16 ||| imm.setWidth 64) s

/-- `lea` (R96). -/
def execLea (d a b : BitVec 5) (sh : BitVec 3) (s : State) : Out :=
  alu2 (.lea d a b sh) d a b (fun x y => x + y <<< sh.toNat) s

/-- `cmp.cc` writes a predicate (R97), and the trace unit sees it (R386). -/
def compare (i : Instr) (p a b : BitVec 5) (c : Word → Word → Bool) (s : State) : Out :=
  issue i 0 s fun s t =>
    let t1 := t.setPred p.toNat (c (t.reg a.toNat) (t.reg b.toNat))
    (s.trace t 2 p.toNat t.pc t.seq (t1.preds.setWidth 64) [(1, t.pc)]).advance t1 i

def execCmpEq (p a b : BitVec 5) (s : State) : Out := compare (.cmpEq p a b) p a b condEq s
def execCmpNe (p a b : BitVec 5) (s : State) : Out := compare (.cmpNe p a b) p a b condNe s
def execCmpLt (p a b : BitVec 5) (s : State) : Out := compare (.cmpLt p a b) p a b condLt s
def execCmpGe (p a b : BitVec 5) (s : State) : Out := compare (.cmpGe p a b) p a b condGe s
def execCmpLtu (p a b : BitVec 5) (s : State) : Out := compare (.cmpLtu p a b) p a b condLtu s
def execCmpGeu (p a b : BitVec 5) (s : State) : Out := compare (.cmpGeu p a b) p a b condGeu s

/-- `bfx`: `w` holds width − 1 (R31, R98). -/
def execBfx (d a : BitVec 5) (w p : BitVec 6) (s : State) : Out :=
  alu1 (.bfx d a w p) d a (fun x => word (x.toNat / 2 ^ p.toNat % 2 ^ (w.toNat + 1))) s

/-- The value of `bfi`: the field of the old destination is replaced (R98). -/
def insertField (old new : Word) (pos width : Nat) : Word :=
  let mask := word ((2 ^ width - 1) * 2 ^ pos)
  (old &&& ~~~mask) ||| ((new <<< pos) &&& mask)

/-- `bfi` reads its destination (R98, R91). -/
def execBfi (d a : BitVec 5) (w p : BitVec 6) (s : State) : Out :=
  alu2 (.bfi d a w p) d d a (fun old x => insertField old x p.toNat (w.toNat + 1)) s

/-- `sel` (R99). -/
def execSel (d a b : BitVec 5) (n : BitVec 1) (p : BitVec 3) (s : State) : Out :=
  issue (.sel d a b n p) 0 s fun s t =>
    let c := (t.pred p.toNat) ^^ decide (n = 1)
    s.result t (.sel d a b n p) d (if c then t.reg a.toNat else t.reg b.toNat)

end Sys2Proof.Machine
end

