-- ==== Sys2Proof/Machine/Windows.lean ====
section
/-! DEFINITION. What lies outside the package as it sees it: the windows and apertures of the host (R374, R375), the arc
links (R376, R377), and the error events (R378). -/

namespace Sys2Proof.Machine

/-! ### Windows (R16, R374) -/

/-- A read of `n` bytes in a window (R374): all ones where it is wider than 8 bytes or not aligned, and of a narrower one
its part of the 8-byte register at an offset. -/
def windowRead (reg : Nat → Word) (off n : Nat) : Word :=
  if n > 8 ∨ off % n ≠ 0 ∨ off % 8 + n > 8 then allOnes else word (bits (reg (off - off % 8)).toNat (8 * (off % 8)) (8 * n))

/-- The 8-byte registers of a VF window. -/
def State.vfReg (s : State) (fn off : Nat) : Word :=
  let f := s.func fn
  match off with
  | 0x00 => if s.dev.ready then 1 else 0
  | 0x08 => word (fn % 128 + (match f.part with | some k => k * 2 ^ 16 | none => 2 ^ 22))
  | 0x10 => (s.account fn).mirAcct
  | 0x18 => (s.account fn).mirQuota
  | 0x20 => match f.part with | some k => word ((s.part k).qCount % 65536) | none => 0
  | _ => 0

/-- A read in a VF window. -/
def State.vfRead (s : State) (fn off n : Nat) : Word := windowRead (s.vfReg fn) off n

/-- A request side's `DEV_PCSTAT` (R372). -/
def Control.stat (c : Control) : Word := word ((if c.busy then 1 else 0) + c.status % 256 * 2 ^ 8 + c.done % 2 ^ 32 * 2 ^ 32)

/-- An entry of the device error log by its slot (R379). -/
def State.errEntry (s : State) (slot : Nat) : List Byte :=
  match ((List.range s.dev.errLog.length).map (s.dev.errTail - s.dev.errLog.length + ·)).findIdx? fun i => decide (i % 256 = slot) with
  | some k => (s.dev.errLog[k]?).elim (zeros 128) recordBytes
  | none => zeros 128

/-- The 8-byte registers of the PF window. Of the accounts' items R374 lays out the mirrors of items 0 and 1 (log 141). -/
def State.pfReg (s : State) (off : Nat) : Word :=
  if inRange off 0x800 0xA07 then (s.account ((off - 0x800) / 8)).mirAcct
  else if inRange off 0xC00 0xE07 then (s.account ((off - 0xC00) / 8)).mirQuota
  else if inRange off 0x1000 0x8FFF then word (field (s.errEntry ((off - 0x1000) / 128)) ((off - 0x1000) % 128) 8)
  else match off with
    | 0x000 => s.devStatus
    | 0x008 => 0x7F
    | 0x108 => s.dev.pf.arg0
    | 0x110 => s.dev.pf.arg1
    | 0x118 => s.dev.pf.stat
    | 0x120 => word s.dev.slew.toNat
    | 0x200 => word s.dev.errHead
    | 0x208 => word s.dev.errTail
    | 0x210 => word s.dev.errLost
    | _ => 0

/-- A read in the PF window. -/
def State.pfRead (s : State) (off n : Nat) : Word := windowRead s.pfReg off n

/-! ### Memory apertures (R375) -/

/-- The physical pieces of a host access, 64 bytes at most each: address, physical address, offset, length. -/
def State.hostPieces (s : State) (part : Nat) (acc : Access) (va : Nat) : Nat → Nat → State × Option (List (Nat × Nat × Nat))
  | 0, _ => (s, some [])
  | fuel + 1, n =>
    if n = 0 then (s, some [])
    else
      let k := min n (64 - va % 64)
      match s.translate 0 part 0 false acc (va % 2 ^ 56) k with
      | (s1, .error _) => (s1, none)
      | (s1, .ok pa) =>
        match s1.hostPieces part acc (va + k) fuel (n - k) with
        | (s2, none) => (s2, none)
        | (s2, some r) => (s2, some ((va % 2 ^ 56, pa, k) :: r))

/-- A failed host access: a KIND 3 PROT record, at most one in a millisecond for each function. -/
def State.hostFails (s : State) (fn part va : Nat) : State :=
  let f := s.func fn
  if f.lastPctl.any fun t => decide (s.dev.elapsed < t + 1000000) then s
  else { s with funcs := tabSet s.funcs fn { f with lastPctl := some s.dev.elapsed } }.errorRecord (some part) 0x21 (word va)

/-- The host-fed queue whose array holds an address: mapped at Newt, or as its descriptor says (R325, R330). -/
def State.hostQueue (s : State) (part va : Nat) : Option NewtQueue :=
  let inside (q : NewtQueue) : Bool := q.host && decide (q.ring ≤ va ∧ va < q.ring + 64 * q.size)
  (List.range (s.part part).qCount).findSome? fun n =>
    match s.queue? part n with
    | some q => if inside q then some q else none
    | none => match s.newtAddr part n .read (s.descVa part n) 64 with
      | (s1, .ok pa) => let bs := s1.readBytes pa 64; if inside (queueOf part n bs 0) then some (queueOf part n bs 0) else none
      | _ => none

/-- The slot that a sequence word names, near NEXT (R331). -/
def NewtQueue.slotOf (q : NewtQueue) (v : Nat) : Nat := ((q.next : Int) + signed 32 ((v + 2 ^ 33 - 1 - q.next % 2 ^ 32) % 2 ^ 32)).toNat

/-- Whether a word written to a position's word 7 is a sequence write that Newt acts on (R330, R331). -/
def NewtQueue.takesSeq (q : NewtQueue) (pos v : Nat) : Bool :=
  if q.mode = 2 then decide (q.slotOf v % q.size = pos) else decide (pos = q.tail % q.size ∧ v = (q.tail + 1) % 2 ^ 32)

/-- The sequence word that bytes written from an address on, within one line, hold: its position and value. -/
def NewtQueue.seqIn (q : NewtQueue) (va : Nat) (bytes : List Byte) : Option (Nat × Nat) :=
  let off := (va - q.ring) % 64
  if off ≤ 56 ∧ 60 ≤ off + bytes.length then some ((va - q.ring) / 64, field bytes (56 - off) 4) else none

/-- What a host write does with one byte: whether it reaches memory by itself. The bytes of a closed position of an ingest
queue do not, and Newt itself writes the sequence word that it takes (R330, R331). -/
def hostByteLands (q : Option NewtQueue) (taken : Bool) (va : Nat) : Bool :=
  match q with
  | none => true
  | some q =>
    let pos := (va - q.ring) / 64
    let seq := decide (56 ≤ (va - q.ring) % 64 ∧ (va - q.ring) % 64 < 60)
    !(decide (q.mode = 2) && q.closed.contains pos) && !(seq && taken)

/-- Newt acts on a sequence word that arrived at a device time. -/
def State.observeSeq (s : State) (part : Nat) (q : NewtQueue) (pos v time : Nat) : State :=
  if !(q.takesSeq pos v) then s
  else if q.mode = 2 then s.ingest part q.q (q.slotOf v) time
  else s.hostPublish part q.q

/-- A kept sequence word (R14): Newt acts on it as its queue then stands. -/
def State.observeKept (s : State) (part qn pos v time : Nat) : State :=
  match s.mapQueue part qn with
  | .ok s1 q => s1.observeSeq part q pos v time
  | .wait s1 => s1.awaitSlot (.sequence part qn pos v time)
  | .bad s1 c x => s1.newtError part (c, x.getD qn)

/-- The part of a host write that lies in one line reaches memory, and Newt observes the sequence word in it: the record
and TAIL are one publication (R330). Until READY the word is kept (R14). -/
def State.hostLine (s : State) (part va pa : Nat) (bytes : List Byte) : State :=
  let q := s.hostQueue part va
  let seq := q.bind fun q => (q.seqIn va bytes).map fun e => (q, e.1, e.2)
  let taken := seq.any fun e => e.1.takesSeq e.2.1 e.2.2 && (s.dev.ready || decide (e.1.mode = 2))
  let s1 := s.publish ((cellsAt pa bytes).filter fun c => hostByteLands q taken (va + (c.1 - pa)))
  match seq with
  | none => s1
  | some (q, pos, v) =>
    if s1.dev.ready then s1.observeSeq part q pos v s1.dev.time
    else s1.awaitSlot (.sequence part q.q pos v s1.dev.time)

/-- The charges of an access through the attach to a line (R151, R335): the crossing, the translation and what it moves. -/
def State.chargeHost (s : State) (part fn va pa n : Nat) : State :=
  ((s.charge 216 fn 0x0E (linesOf pa n)).chargeLookup 216 fn 0 part va).chargeFrom 216 fn 0 none pa n false

/-- A host write through the aperture of a function, line by line in the order of its addresses. -/
def State.hostWrite (s : State) (fn va : Nat) (bytes : List Byte) : State :=
  match (s.func fn).part with
  | none => s
  | some part =>
    match s.hostPieces part .write va bytes.length bytes.length with
    | (s1, none) => s1.hostFails fn part va
    | (s1, some ps) =>
      let s2 := ps.foldl (fun s p => s.chargeHost part fn p.1 p.2.1 p.2.2) s1
      let s3 := if bit (s2.part part).ckCtl.toNat 1 then
          let a := s2.logEvent part { typ := 11, a := bytes.length, b := word va }
          (List.range ((bytes.length + 7) / 8)).foldl (fun s k => s.logEvent part { typ := 12, b := word (field bytes (8 * k) 8) }) a
        else s2
      ps.foldl (fun s p => s.hostLine part p.1 p.2.1 ((bytes.drop ((p.1 + 2 ^ 56 - va % 2 ^ 56) % 2 ^ 56)).take p.2.2)) s3

/-- HOST_APERTURE_WRITE (R375); held while the log is replayed (R403). -/
def execHostApertureWrite (fn va : Nat) (bytes : List Byte) (s : State) : Out :=
  match (s.func fn).part with
  | none => .next s
  | some part => .next (if s.replaying part then { s with held := s.held ++ [.write fn va bytes] } else s.hostWrite fn va bytes)

/-- HOST_APERTURE_READ (R373, R375): all ones for an unassigned function and where a translation fails. -/
def execHostApertureRead (fn va n : Nat) (s : State) : Out :=
  let give (s : State) (bs : List Byte) : State := { s with dev := { s.dev with hostData := bs } }
  let ones : List Byte := List.replicate n (255 : Byte)
  match (s.func fn).part with
  | none => .next (give s ones)
  | some part =>
    match s.hostPieces part .read va n n with
    | (s1, none) => .next (give (s1.hostFails fn part va) ones)
    | (s1, some ps) =>
      let s2 := ps.foldl (fun s p => s.chargeHost part fn p.1 p.2.1 p.2.2) s1
      .next (give s2 (ps.flatMap fun p => s2.readBytes p.2.1 p.2.2))

/-! ### Arc links (R376, R377) -/

def State.link (s : State) (n : Nat) : Link := tabGet {} s.links n
def State.setLink (s : State) (n : Nat) (l : Link) : State := { s with links := tabSet s.links n l }

/-- The instance and ring of a (link, ring index) pair, by direction: incoming has no producer here (R376). -/
def State.arc (s : State) (link ring : Nat) (incoming : Bool) : Option (Inst × Ring) :=
  s.insts.findSome? fun i =>
    match i.rings[ring]? with
    | some r =>
      if r.arc = link ∧ bit (s.part i.part).links link ∧ (if incoming then r.prod = 0xFFFF ∧ r.cons ≠ 0xFFFF else r.cons = 0xFFFF ∧ r.prod ≠ 0xFFFF)
      then some (i, r) else none
    | none => none

/-- The island of an arc link, six on each die (R417, log 17). -/
def linkIsland (link : Nat) : Nat := 218 + link % 6 + 16 * (link / 6)

/-- What a link charges for bytes that it reads or writes in a tile's A-store (R335). -/
def State.chargeArc (s : State) (link acct pa n : Nat) : State := s.chargeFrom (linkIsland link) acct (link / 6) none pa n false

/-- An incoming slot: payload, trailer and the producer's count as one publication; the far end sends only into room. -/
def State.arcArrive (s : State) (link ring : Nat) (bytes : List Byte) : State :=
  match s.arc link ring true with
  | none => s
  | some (i, r) =>
    match i.endTile r.cons with
    | none => s
    | some tile =>
      let cb := apertureBase tile + r.ccb
      let count := s.readNat cb 8
      if count - s.readNat (cb + 8) 8 ≥ r.depth ∨ tile ≥ 192 ∨ (s.link link).up = false then s
      else
        let size := 64 * r.slot64
        let pa := apertureBase tile + r.base + count % r.depth * size
        let s1 := (((s.charge (linkIsland link) i.acct 0x0F r.slot64).chargeArc link i.acct pa size).chargeArc link i.acct cb 8).publish
          (cellsAt pa ((bytes ++ zeros size).take size) ++ cellsAt cb (leBytes 8 (count + 1)))
        s1.logEvent i.part { typ := 5, a := link + ring * 16, b := word (count + 1) }

/-- ARC_ARRIVAL (R376, R401); held while the log is replayed (R403). -/
def execArcArrival (link ring : Nat) (bytes : List Byte) (s : State) : Out :=
  match s.arc link ring true with
  | none => .next s
  | some (i, _) => .next (if s.replaying i.part then { s with held := s.held ++ [.arc link ring bytes] } else s.arcArrive link ring bytes)

/-- ARC_ADVANCE_RETURN (R376): the far consumer's count, written as REMOTE0. -/
def execArcAdvanceReturn (link ring n : Nat) (s : State) : Out :=
  match s.arc link ring false with
  | none => .next s
  | some (i, r) =>
    match i.endTile r.prod with
    | none => .next s
    | some tile =>
      let cb := apertureBase tile + r.pcb
      if tile ≥ 192 ∨ (s.link link).up = false ∨ n ≤ s.readNat cb 8 ∨ n > s.readNat (cb + 8) 8 then .next s
      else .next ((s.chargeArc link i.acct cb 8).publish (cellsAt cb (leBytes 8 n)))

/-- ARC_SLOT_SEND (R376): the link sends the next posted slot; the initial slots are the far end's own. -/
def execArcSlotSend (link ring : Nat) (s : State) : Out :=
  match s.arc link ring false with
  | none => .next s
  | some (i, r) =>
    match i.endTile r.prod with
    | none => .next s
    | some tile =>
      let l := s.link link
      let key := i.launchSeq * 4096 + ring
      let sent := (tabGet? l.sent key).getD r.delay
      if tile ≥ 192 ∨ l.up = false ∨ sent ≥ s.readNat (apertureBase tile + r.pcb + 8) 8 then .next s
      else
        let s1 := (s.charge (linkIsland link) i.acct 0x0F r.slot64).chargeArc link i.acct
          (apertureBase tile + r.base + sent % r.depth * (64 * r.slot64)) (64 * r.slot64)
        .next (s1.setLink link { l with sent := tabSet l.sent key (sent + 1) })

/-- LINK_BEAT_ERROR (R377): the link retrains; a slot that is not acknowledged is sent again whole. -/
def execLinkBeatError (link : Nat) (s : State) : Out :=
  let l := s.link link
  .next (if l.up ∧ link < 12 then s.setLink link { l with up := false, downAt := s.dev.elapsed } else s)

/-- The partition a link is assigned to. -/
def State.linkOwner (s : State) (link : Nat) : Option Nat :=
  (s.parts.find? fun e => e.2.exists_ && bit e.2.links link).map Prod.fst

/-- LINK_DOWN (R377): the link has been down for more than 100 ms of elapsed time. -/
def execLinkDown (link : Nat) (s : State) : Out :=
  let l := s.link link
  if link ≥ 12 ∨ l.up ∨ l.reported ∨ s.dev.elapsed ≤ l.downAt + 100000000 then .next s
  else
    let s1 := s.setLink link { l with reported := true }
    .next ({ s1 with fresh := s1.fresh + 1 }.errorRecord (s.linkOwner link) 0x92 (Config.freeWord s1.fresh))

/-- LINK_RETURN (R377): one of the twelve links (R7) returns. -/
def execLinkReturn (link : Nat) (s : State) : Out :=
  .next (if link < 12 then s.setLink link { s.link link with up := true, reported := false } else s)

/-! ### Error events (R378, R417) -/

/-- ATTACH_ERR: a module fails training or loses lanes; the attach is then no longer trained on all four (R12, R14, log
118). -/
def execAttachErr (_m : Nat) (s : State) : Out :=
  let s1 : State := { s with dev := { s.dev with attach := false, attachLost := s.dev.attachLost || s.dev.attach }, fresh := s.fresh + 1 }
  .next (s1.errorRecord none 0x93 (Config.freeWord s.fresh))

/-- An operating point is requested for an island, one of 256 with eight points each, and the device monitor sets it (R417). A
tile that was retired stays off (R412). -/
def State.pointAsked (s : State) (island point : Nat) : State :=
  if island ≥ 256 ∨ point ≥ 8 ∨ s.dev.retired.contains island then s
  else { s with dev := { s.dev with asked := tabSet s.dev.asked island point, points := tabSet s.dev.points island point } }

/-- THERMAL (R417): the limits hold an island one point lower than it stands, which is then below the point requested for
it. -/
def execThermal (island : Nat) (s : State) : Out :=
  let pt := tabGet 7 s.dev.points island
  if island ≥ 256 ∨ pt = 0 ∨ tabGet 7 s.dev.asked island < pt then .next s
  else
    let s1 := { s with dev := { s.dev with points := tabSet s.dev.points island (pt - 1) }, fresh := s.fresh + 1 }
    .next (s1.errorRecord (s.islandOwner island) 0x97 (Config.freeWord s.fresh))

end Sys2Proof.Machine
end

