-- ==== Sys2Proof/Machine/Tethys.lean ====
section
/-! DEFINITION. Tethys and the device's life: requests (R406), firmware (R408, R409), attestation (R415), unlock (R416),
bring-up (R405), power. The messages that are signed are SHAKE256 digests of the listed numbers (log 16). -/

namespace Sys2Proof.Machine

/-! ### Requests (R406) -/

/-- What Tethys answers. -/
def State.respond (s : State) (r : List Nat) : State := { s with teth := { s.teth with response := r } }

/-- Status words of a response: done, refused. -/
def respDone : Nat := 0
def respRefused : Nat := 1

def State.refuse (s : State) : State := s.respond [respRefused]

/-- A request that Tethys takes up: it is booted and acts on no other request; in recovery it refuses all but some;
without main power it refuses those that need it. -/
def request (recovery power : Bool) (s : State) (k : State → State) : Out :=
  if !s.teth.booted || s.teth.pendingToken.isSome || s.teth.loading.isSome then .next s
  else if (s.teth.recovery && !recovery) || (power && !s.dev.mainPower) then .next s.refuse
  else .next (k s)

/-- A signed request: the operator's signature over the command, the counter and the arguments, with a counter above
the last one accepted. -/
def signedRequest (recovery power : Bool) (code ctr sig : Nat) (args : List Nat) (s : State) (k : State → State) : Out :=
  request recovery power s fun s =>
    if ctr > s.teth.counter ∧ ctr < 2 ^ 32 ∧ Config.ed448Check s.teth.operatorKey (Config.shake256 (code :: ctr :: args)) sig
    then k { s with teth := { s.teth with counter := ctr } } else s.refuse

/-- STATUS: `DEV_STATUS`, the lifecycle state, the firmware version, and whether it is in recovery (R409). -/
def execStatus (s : State) : Out :=
  request true false s fun s =>
    s.respond [respDone, s.devStatus.toNat, s.teth.lifecycle, s.teth.fwVersion, if s.teth.recovery then 1 else 0]

/-- LOGRD: a record of Tethys's copy of the error log; its own head moves past it (R379). -/
def execLogrd (i : Nat) (s : State) : Out :=
  request true false s fun s =>
    if i < s.dev.errTail ∧ s.dev.errTail ≤ i + s.dev.errLog.length then
      { s with teth := { s.teth with
          errHead := max s.teth.errHead (i + 1)
          response := respDone :: (((s.dev.errLog[i + s.dev.errLog.length - s.dev.errTail]?).elim [] recordBytes).map BitVec.toNat) } }
    else s.refuse

/-- Tethys's copies of an account's mirrors (R12). -/
def State.mirrorsOf (s : State) (acct : Nat) : Word × Word := tabGet (0, allOnes) s.teth.mirrors acct

/-- ENRD: a mirror of an account, as Tethys's copy of it stands (R12, R13, R16). -/
def execEnrd (acct item : Nat) (s : State) : Out :=
  request false true s fun s =>
    s.respond (if acct ≤ 64 then [respDone, (if item = 0 then (s.mirrorsOf acct).1 else (s.mirrorsOf acct).2).toNat] else [respRefused])

/-- WEARRD (R411). -/
def execWearrd (i : Nat) (s : State) : Out :=
  request false false s fun s => s.respond (if i < 6 then [respDone, (s.wearRead i).toNat] else [respRefused])

/-- The device identifier: the first 16 bytes of the digest of the public key (R413). -/
def deviceId (identity : Nat) : Nat := Config.shake256 [identity] % 2 ^ 128

/-- ATTEST (R415): the nonce, the identifier and the four measurements under the identity key, at one instant. -/
def execAttest (nonce : Nat) (s : State) : Out :=
  request true false s fun s =>
    let t := s.teth
    let ms := [t.m0.toNat, t.m1.toNat, t.m2.toNat, t.m3.toNat]
    s.respond ([respDone, deviceId t.identity] ++ ms ++
      [Config.ed448Sign t.identity (Config.shake256 ([nonce, deviceId t.identity] ++ ms))])

/-- PCTL: a request on Tethys's side of reset and partition control (R15, R372). -/
def execPctl (ctr sig : Nat) (cmd arg0 arg1 : Word) (s : State) : Out :=
  signedRequest false true 0x10 ctr sig [cmd.toNat, arg0.toNat, arg1.toNat] s fun s =>
    if s.dev.teth.busy then s.refuse
    else ({ s with dev := { s.dev with teth := s.acceptCmd { s.dev.teth with arg0, arg1 } cmd } } : State).respond [respDone]

/-- The dump of a partition (R393): its tiles' trace buffers, its record ring as far as it is written, its backlog, and
the contexts of its Stopped threads. -/
def State.dumpOf (s : State) (part : Nat) : List Nat :=
  let p := s.part part
  let traces := p.tiles.flatMap fun t => (s.tile t).trace.flatMap fun r => [r.w0.toNat, r.w1.toNat, r.w2.toNat, r.w3.toNat]
  let base := wbits p.recRing 12 44 * 4096
  let ring := if base = 0 then [] else
    (List.range (16 * (2 ^ wbits p.recRing 0 4 + 1))).map fun k =>
      match s.translate 0 part 1 false .read (base + 8 * k) 8 with
      | (s1, .ok pa) => s1.readNat pa 8
      | _ => 0
  let backlog := p.backlog.flatMap fun r => (recordBytes r).map BitVec.toNat
  let contexts := s.threads.flatMap fun e =>
    if e.2.part = part ∧ e.2.state = .stopped then (List.range 256).map fun k => (e.2.savedWord k).toNat else []
  traces ++ ring ++ backlog ++ contexts

/-- DUMP. -/
def execDump (ctr sig part : Nat) (s : State) : Out :=
  signedRequest false true 0x11 ctr sig [part] s fun s =>
    if (s.part part).exists_ then s.respond (respDone :: s.dumpOf part) else s.refuse

/-- KEKSET (R414). -/
def execKekset (ctr sig key : Nat) (s : State) : Out :=
  signedRequest false true 0x12 ctr sig [key] s fun s => { s with teth := { s.teth with kek := some key, response := [respDone] } }

/-! ### Boot and device reset (R405, R408, R409) -/

/-- The one image in flash (R407). -/
def Tethys.image (t : Tethys) : FwImage := t.flash.getD Config.factoryImage

/-- Whether an image verifies (R407, R408): its key is the one whose digest is fused, the signature is that key's over the
version, the index and the content, and its index is not below the fused rollback counter. -/
def imageVerifies (f : FwImage) (rollback : Nat) : Bool :=
  decide (Config.shake256 [f.key] = Config.firmwareDigest) && Config.ed448Check f.key (Config.shake256 [f.version, f.index, f.body]) f.sig &&
    decide (f.index ≥ rollback)

/-- Whether the image verifies as it stands in flash (R408). -/
def Tethys.imageGood (t : Tethys) : Bool := t.flashWhole && imageVerifies t.image t.rollback

/-- M1: the hash masks and the operator key (R415). -/
def State.measureMasks (s : State) : State :=
  { s with teth := { s.teth with m1 := Config.digest64 (s.teth.operatorKey :: s.dev.hash.toList.map BitVec.toNat) } }

/-- The measurements of the firmware image, of the masks and the operator key, of the lifecycle and the unlocks (R415). -/
def State.measure (s : State) : State :=
  let t := s.teth
  let f := t.image
  ({ s with teth := { t with
      m0 := Config.digest64 [f.version, f.index, f.body, f.key, f.sig]
      m2 := Config.digest64 [t.lifecycle, t.unlocks]
      m3 := 0 } } : State).measureMasks

/-- Tethys starts from the one image; a bad, incomplete or rolled-back one leads to recovery (R408). Requests that it had not
acted on are gone (log 121). -/
def State.boot (s : State) : State :=
  let t := s.teth
  let ok := t.imageGood
  ({ s with
    teth := { t with
      booted := true, recovery := !ok, loading := none, nonce := none, port := none, inbox := []
      fwVersion := if ok then t.image.version else t.fwVersion
      fwIndex := if ok then t.image.index else t.fwIndex
      fwGood := ok
      identity := Config.ed448Public Config.fuseSecret }
    dev := { s.dev with mgmt := true } } : State).measure

/-- The part with main power off: everything but Tethys, the wear counts, the error log, the safe tier and the memory
beyond the package is as reset leaves it. -/
def State.powerOff (s : State) : State :=
  { State.reset with
    mem := s.mem.filter fun c => decide (c.1 ≥ 0xC000000000000)
    ckpts := s.ckpts, turns := s.turns, steps := s.steps, fresh := s.fresh, nextCmd := s.nextCmd, teth := s.teth
    dev := { State.reset.dev with
      mgmt := s.dev.mgmt, errLog := s.dev.errLog, errHead := s.dev.errHead, errTail := s.dev.errTail, errLost := s.dev.errLost
      errNext := s.dev.errNext, retired0 := s.dev.retired0, retired1 := s.dev.retired1, calGen := s.dev.calGen
      hashNext := s.dev.hashNext, pchOut := s.dev.pchOut, rowsUsed := s.dev.rowsUsed, retired := s.dev.retired
      wearDays := s.dev.wearDays, wearConf := s.dev.wearConf, predicted := s.dev.predicted, powered := s.dev.powered
      cycles := s.dev.cycles } }

/-- RESET: a device reset; main power is cycled, and bring-up starts at step 1 with main power-good (R406). -/
def execReset (ctr sig : Nat) (s : State) : Out :=
  signedRequest true false 0x13 ctr sig [] s fun s => s.powerOff.boot.respond [respDone]

/-- The numbers of an image that a request's signature covers. -/
def imageNumbers (f : FwImage) : List Nat := [f.version, f.index, f.body, f.key, f.sig]

/-- FWLOAD (R408): its first step takes the image out of service, the second one writes the new image whole over the only
one and verifies it as it stands in flash. One that does not verify is answered as refused, and stands there. -/
def execFwload (ctr sig version index : Nat) (image : FwSealed) (s : State) : Out :=
  match s.teth.loading with
  | some f =>
    .next { s with teth := { s.teth with loading := none, flash := some f, flashWhole := true
                                         response := if imageVerifies f s.teth.rollback then [respDone] else [respRefused] } }
  | none =>
    let f : FwImage := { toFwSealed := image, version, index }
    signedRequest true false 0x20 ctr sig (imageNumbers f) s fun s =>
      { s with teth := { s.teth with loading := some f, flashWhole := false } }

/-! ### Unlock and provisioning (R416) -/

/-- UNLOCK, step 1: the fuse values with a fresh nonce of 16 bytes. -/
def execUnlockNonce (s : State) : Out :=
  request false false s fun s =>
    let n := Config.random s.fresh % 2 ^ 128
    let t := s.teth
    { s with fresh := s.fresh + 1, teth := { t with
        nonce := some n, nonces := t.nonces + 1, response := [respDone, deviceId t.identity, t.lifecycle, t.unlocks, n] } }

/-- The scope and the signature of a token. -/
def tokenScope (token : Nat) : Nat := token % 2 ^ 32
def tokenSig (token : Nat) : Nat := token / 2 ^ 32

/-- Whether a token is signed over the present identifier, lifecycle, counter and nonce, and its scope (step 2). -/
def State.tokenOk (s : State) (token : Nat) : Bool :=
  match s.teth.nonce with
  | none => false
  | some n => Config.ed448Check Config.debugAuthorityKey
      (Config.shake256 [deviceId s.teth.identity, s.teth.lifecycle, s.teth.unlocks, n, tokenScope token]) (tokenSig token)

/-- Steps 3 to 5 of an unlock: the counter, the partitions and keys, the measurements. -/
def State.carryUnlock (s : State) (token : Nat) : State :=
  let s1 := s.partNums.foldl State.destroyPart s
  let t := s1.teth
  let u := (t.unlocks + 1) % 65536
  { s1 with teth := { t with
      unlocks := u, kek := none, nonce := none, pendingToken := none
      m3 := Config.digest64 [t.m3.toNat, Config.shake256 [token]], m2 := Config.digest64 [t.m2.toNat, u] } }

/-- UNLOCK, steps 2 to 6: the first step accepts and records the token, the second carries the unlock through; the port
opens where main power is on. -/
def execUnlockToken (token : Nat) (s : State) : Out :=
  match s.teth.booted, s.teth.pendingToken with
  | true, some tk =>
    let s1 := s.carryUnlock tk
    .next (if s1.dev.mainPower then { s1 with teth := { s1.teth with port := some (tokenScope tk), response := [respDone] } } else s1.refuse)
  | _, _ =>
    request false false s fun s =>
      if s.tokenOk token then { s with teth := { s.teth with pendingToken := some token } } else s.refuse

/-- PROVISION: a token over the device and the new key replaces the operator public key. -/
def execProvision (token key : Nat) (s : State) : Out :=
  request false false s fun s =>
    let t := s.teth
    if Config.ed448Check Config.debugAuthorityKey (Config.shake256 [deviceId t.identity, t.lifecycle, t.unlocks, key]) token then
      ({ s with teth := { t with operatorKey := key, response := [respDone] } } : State).measureMasks
    else s.refuse

/-- Tethys goes down while main power stays on (R12): it loses what it holds in RAM, and a write of the flash stays
incomplete. The other planes run on. -/
def State.tethysDown (s : State) : State :=
  { s with
    teth := { s.teth with booted := false, nonce := none, loading := none, inbox := [], response := [] }
    dev := { s.dev with mgmt := false } }

/-- The flash refuses the write of a firmware image in progress: the image stays incomplete (R408). -/
def State.flashRefused (s : State) : State :=
  if s.teth.loading.isSome then { s with teth := { s.teth with loading := none, response := [respRefused] } } else s

/-- Tethys starts again beside a part whose main power stayed on: with an image that verifies there is no device reset, and
the firmware, the measurements and the debug port are as they were; one that does not leads to recovery, where main power
stays off (R408, R409, log 118). -/
def State.restart (s : State) : State :=
  if s.teth.imageGood then { s with teth := { s.teth with booted := true }, dev := { s.dev with mgmt := true } }
  else s.powerOff.boot

/-- STANDBY_BOOT (R405 step 0, R408, R413, R416): an unlock that was accepted is carried through first. -/
def execStandbyBoot (s : State) : Out :=
  if s.teth.booted then .next s
  else
    let s1 := if s.dev.mainPower then s.restart else s.boot
    .next (match s1.teth.pendingToken with | some tk => s1.carryUnlock tk | none => s1)

/-- POWER_LOSS: standby and main power are lost; the flash and the fuses keep what they hold. -/
def execPowerLoss (s : State) : Out :=
  let s1 := s.powerOff
  .next { s1 with
    teth := { s1.teth with booted := false, recovery := false, kek := none, nonce := none, loading := none, port := none, inbox := [], response := [] }
    dev := { s1.dev with mgmt := false } }

/-! ### Bring-up (R405) -/

/-- The masks of the device configuration, at their bits [38:8], as level M last wrote them; a set that breaks the rule is
refused with a HASHCFG record (R323). -/
def State.loadMasks (s : State) : State :=
  let ms := s.dev.hashNext.getD ((List.range 9).map fun n => wbits (Config.configMask n) 8 31 * 256)
  if masksOk ms then ({ s with dev := { s.dev with hash := Vector.ofFn fun n => word (ms.getD n.val 0) } } : State).measureMasks
  else
    { s with dev := { s.dev with hash := State.reset.dev.hash }, fresh := s.fresh + 1 }.errorRecord none 0x96 (Config.freeWord s.fresh)

/-- A RETIRE record for each of some built tiles or stacks that failed their test (R405, R412). -/
def State.retireFailed (s : State) : Nat → State
  | 0 => s
  | n + 1 => ({ s with fresh := s.fresh + 1, dev := { s.dev with degraded := true } }.errorRecord none 0x94 (Config.freeWord s.fresh)).retireFailed n

/-- Whether step 1 has succeeded, both dies presenting 96 tiles. -/
def Device.presented (d : Device) : Bool := d.mainPower && decide (d.good0.length = 96 ∧ d.good1.length = 96)

/-- Whether step 1 has succeeded and no later step has failed. -/
def Device.numbered (d : Device) : Bool := d.presented && !d.failed

/-- Whether every virtual tile is there. -/
def State.allThere (s : State) : Bool := (List.range 192).all fun t => (s.tile t).present && !(s.tile t).absent

/-- A tile's island fails in step 2 of bring-up (R405): it is retired, with a spare in its place where there is one; without
one its die presents fewer than 96 tiles, and bring-up has failed. -/
def State.tileFails (s : State) (tile : Nat) : State :=
  if s.dev.ready || !s.dev.numbered || decide (tile ≥ 192) || !(s.tile tile).present then s
  else
    let s1 := s.retireTile (s.tile tile).owner tile
    { s1 with dev := { s1.dev with failed := s1.dev.failed || (s1.tile tile).absent } }

/-- An island of no presented tile, or a stack (islands 240 and up), fails in bring-up (R405, R417): it is retired with a
RETIRE record. A held-back tile that fails is no spare any more; a stack that fails ends bring-up. -/
def State.unitFails (s : State) (unit : Nat) : State :=
  if s.dev.ready || !s.dev.numbered || decide (256 ≤ unit) then s
  else if unit < 208 then
    let d := s.dev
    let spare := d.offered.contains unit && !((if unit < 104 then d.good0 else d.good1).contains (unit % 104))
    if !spare then s
    else
      let d1 : Device := { d with
        offered := d.offered.filter (· ≠ unit), retired := unit :: d.retired, points := tabSet d.points unit 0
        spares0 := if unit < 104 then d.spares0 - 1 else d.spares0
        spares1 := if unit < 104 then d.spares1 else d.spares1 - 1
        retired0 := if unit < 104 then d.retired0 + 1 else d.retired0
        retired1 := if unit < 104 then d.retired1 else d.retired1 + 1 }
      ({ s with dev := d1 } : State).retireFailed 1
  else
    let s1 := s.retireFailed 1
    { s1 with dev := { s1.dev with points := tabSet s1.dev.points unit 0, failed := decide (unit ≥ 240) } }

/-- A pseudo-channel, of 512, has used up its spare rows: it counts in `WEAR_PCH`, and a RETIRE record says so (R412,
R378). -/
def State.pchExhausted (s : State) (pch : Nat) : State :=
  if pch ≥ 512 ∨ s.dev.pchOut.contains pch then s
  else ({ s with dev := { s.dev with pchOut := pch :: s.dev.pchOut } } : State).retireFailed 1

/-- The row of an HBM address fails: its pseudo-channel remaps it to a spare row, which holds what the row held, and counts in
`WEAR_PCH` once its last one is taken; from then on the row's block raises MEM_UE (R412, log 138). -/
def State.rowFails (s : State) (pa : Nat) : State :=
  match regionOf pa with
  | .hbm =>
    let at_ := hbmPlace s.dev.hash pa
    let k := 64 * at_.stack + 2 * at_.channel + at_.pseudo
    let used := tabGet 0 s.dev.rowsUsed k
    if used < Config.spareRows k then
      let s1 : State := { s with dev := { s.dev with rowsUsed := tabSet s.dev.rowsUsed k (used + 1) } }
      if used + 1 = Config.spareRows k then s1.pchExhausted k else s1
    else (s.pchExhausted k).memFault pa
  | _ => s

/-- The built tiles of a die that passed their test and may be presented: none that was retired (R412). -/
def Device.candidates (d : Device) (die : Nat) (good : List Nat) : List Nat := good.filter fun k => !(d.retired.contains (104 * die + k))

/-- MAIN_POWER_GOOD (R405 step 1, R9): the built tiles of each die that passed their test, of which firmware presents
the first 96, numbered in row-major order, and holds back the others; and whether every stack passed. A tile that fails is
retired. -/
def execMainPowerGood (tested0 tested1 : List Nat) (hbmOk : Bool) (s : State) : Out :=
  let ok (g : List Nat) : Bool := g.all (fun k => decide (k < 104)) && decide g.Nodup
  if !s.teth.booted || s.teth.recovery || s.dev.mainPower || !(ok tested0) || !(ok tested1) then .next s
  else
    let good0 := s.dev.candidates 0 tested0
    let good1 := s.dev.candidates 1 tested1
    let lost (die : Nat) (good : List Nat) : List Nat := ((List.range 104).filter fun k => !(good.contains k)).map (104 * die + ·)
    let s1 := s.loadMasks
    let lost0 := 104 - good0.length
    let lost1 := 104 - good1.length
    let s2 := s1.retireFailed ((lost0 - s1.dev.retired0) + (lost1 - s1.dev.retired1) + if hbmOk then 0 else 1)
    let enough := decide (good0.length ≥ 96 ∧ good1.length ≥ 96) && hbmOk
    let present (g : List Nat) : List Nat := if enough then (g.take 96).insertionSort (· ≤ ·) else []
    let s3 : State := { s2 with dev := { s2.dev with
      mainPower := true, failed := !enough, good0 := present good0, good1 := present good1
      spares0 := good0.length - 96, spares1 := good1.length - 96
      retired0 := max s2.dev.retired0 lost0, retired1 := max s2.dev.retired1 lost1, retired := lost 0 good0 ++ lost 1 good1
      cycles := s2.dev.cycles + 1, wearDays := if s2.dev.predicted then s2.dev.wearDays else 2 ^ 32 - 1
      offered := good0 ++ good1.map (104 + ·) } }
    .next (if enough then { s3 with tiles := (List.range 192).map fun t => (t, { present := true }) } else s3)

/-- CALIBRATION_DONE (R405 step 2, R338, R410): every coefficient is fitted afresh and the wear margins are measured; the
energy that it took is charged to the device account. -/
def execCalibrationDone (s : State) : Out :=
  .next (if s.dev.numbered && !s.dev.cal then
    { s.chargeCalibration with dev := { s.dev with
        cal := true, calGen := s.dev.calGen + 1, calBase := s.dev.calGen + 1
        trims := [], trimNext := [], trimDue := false, trimLast := s.dev.elapsed } }.measureWear
    else s)

/-- MEMINIT_DONE (R405 step 3): all HBM is zero and every descriptor is cleared. -/
def execMeminitDone (s : State) : Out :=
  .next (if s.dev.numbered && s.dev.cal && !s.dev.memInit then
    let s1 := s.zeroRange 0 0x8000000000
    { s1 with dev := { s1.dev with memInit := true } } else s)

/-- ATTACH_TRAINING_DONE (R405 step 4, which a failure of steps 2 and 3 does not stop), and the end of a training after a loss of lanes (log 118). -/
def execAttachTrainingDone (ok : Bool) (s : State) : Out :=
  .next (if s.dev.presented && (!s.dev.attachEnded || s.dev.attachLost) then
    let s1 := { s with dev := { s.dev with attachEnded := true, attach := ok, attachLost := s.dev.attachLost && !ok } }
    if ok then s1 else { s1 with fresh := s1.fresh + 1 }.errorRecord none 0x93 (Config.freeWord s1.fresh) else s)

/-- READY (R405 step 5, R9, R14, R408): after memory initialisation and the end of attach training, with every tile there.
The virtual numbers then follow the row-major order of the presented tiles. -/
def execReady (s : State) : Out :=
  .next (if s.dev.numbered && s.dev.memInit && s.dev.attachEnded && !s.dev.ready && s.allThere then
    { s with
      dev := { s.dev with ready := true, good0 := s.dev.good0.insertionSort (· ≤ ·), good1 := s.dev.good1.insertionSort (· ≤ ·) }
      teth := { s.teth with rollback := max s.teth.rollback s.teth.fwIndex } } else s)

/-! ### Arrival of requests (R406) -/

/-- Requests in their order of arrival; of those in one frame time, I3C before Ethernet. -/
def Request.before (x y : Request) : Bool := decide (x.frame < y.frame) || (decide (x.frame = y.frame) && !x.ethernet && y.ethernet)

/-- A request takes its place behind every one that does not come after it. -/
def arriveIn (r : Request) : List Request → List Request
  | [] => [r]
  | x :: xs => if r.before x then r :: x :: xs else x :: arriveIn r xs

/-- A request arrives at Tethys, which is up (R406). -/
def State.requestArrives (s : State) (r : Request) : State :=
  if s.teth.booted then { s with teth := { s.teth with inbox := arriveIn r s.teth.inbox } } else s

/-- What the host does reaches the part only through the attach (R12). -/
def overAttach (i : Instr) : Bool :=
  match i with
  | .hostApertureWrite _ _ _ | .hostApertureRead _ _ _ | .queueNotify _ _ | .queueNotifyIndexed _ _ | .hostPublication _ _
  | .ingestArrival _ _ _ | .timeStep _ | .timeSlew _ => true
  | .registerWrite thread _ _ => decide (thread = 768)
  | _ => false

/-- The requests of Tethys (R406), which acts on one at a time, in their order of arrival. -/
def isRequest (i : Instr) : Bool :=
  match i with
  | .status | .logrd _ | .enrd _ _ | .wearrd _ | .attest _ | .pctl _ _ _ _ _ | .dump _ _ _ | .kekset _ _ _ | .reset _ _ | .fwload _ _ _ _ _
  | .unlockNonce | .unlockToken _ | .provision _ _ => true
  | _ => false

/-- Whether Tethys is still at its last request (R408, R416). -/
def Tethys.working (t : Tethys) : Bool := t.pendingToken.isSome || t.loading.isSome

/-! ### The debug port (R13, R388, R416) -/

/-- Whether the port reaches the tiles: an unlock has opened it and Tethys and main power are up. What a scope leaves out the
spec does not say, and the port reaches every tile (log 91). -/
def State.portOpen (s : State) : Bool := s.teth.booted && s.teth.port.isSome && s.dev.mainPower

/-- A read of a `DB_` register through the port: Tethys returns its value; a read of `DB_TRCDATA` moves the selection on
(R387). -/
def State.portRead (s : State) (tile reg : Nat) : State :=
  if s.portOpen && inRange reg 0x0E0 0x0F0 && (s.tile tile).present then
    let v := (s.tile tile).dbValue reg
    (if reg = 0x0E3 then s.setTile tile (s.tile tile).trcRead.2 else s).respond [respDone, v.toNat]
  else s

/-- A write of a `DB_` register through the port. No level writes `DB_TRCDATA`. -/
def State.portWrite (s : State) (tile reg : Nat) (v : Word) : State :=
  if s.portOpen && inRange reg 0x0E0 0x0F0 && decide (reg ≠ 0x0E3) && (s.tile tile).present then
    (s.setTile tile ((s.tile tile).store reg v)).respond [respDone]
  else s

end Sys2Proof.Machine
end

