-- ==== Sys2Proof/Machine/Wake.lean ====
section
/-! DEFINITION. The wake of a Waiting thread (R84, R114): its instruction looks again at what it waits for. -/

namespace Sys2Proof.Machine

/-- A waiting instruction looks again: it completes, traps, or goes on waiting. `bar` and a `q.wait` among a queue's
waiters are ended by the event they wait for. -/
def State.lookAgain (s : State) (t : Thread) (w : Wait) : State :=
  match w.instr with
  | .thrExit => exitCore s t
  | .phaseSync => phaseSyncCore s t
  | .waitEq d a sp z o => waitWordCore (.waitEq d a sp z o) s t
  | .waitNe d a sp z o => waitWordCore (.waitNe d a sp z o) s t
  | .ringWait h a => ringWaitCore (.ringWait h a) h.toNat (t.reg a.toNat).toNat true s t
  | .ringRoom h a => ringWaitCore (.ringRoom h a) h.toNat (t.reg a.toNat).toNat false s t
  | .mxCfg a x => mxCfgCore a x s t
  | .mxRunRing h b c p => mxRunRingCore h b c p s t
  | .mxOutRing h b c => mxOutRingCore (.mxOutRing h b c) h b c 1 0 0 s t
  | .mxOutRingExt h b c x => mxOutRingCore (.mxOutRingExt h b c x) h b c (outFmt x) (outScale x) (outMode x) s t
  | .mxWait => engineWaitCore .mx .mxWait s t
  | .spWait => engineWaitCore .sk .spWait s t
  | .spLdRing h b k => spLdRingCore h b k s t
  | .spStRing h b k => spStRingCore (.spStRing h b k) h b k none 0 0 s t
  | .spStExt r h a b k x => spStExtCore r h a b k x s t
  | .msStop h => msStopCore (.msStop h) h.toNat s t
  | .fireBegin => fireBeginCore s t
  | .fireEnd => fireEndCore s s t
  | .qClaim d a => qClaimCore d a s s t
  | .qPub a b => qPubCore a b w.data s s t
  | .qWait a => if s.queues.any fun q => q.waiters.contains t.num then s else qWaitCore a s t
  | .qNote a => qNoteCore a s t
  | .markWait a => markWaitCore a s t
  | .grLaunch d a b => grLaunchCore d a b w.data s t
  | .csrWr a r => csrWrCore a r s t
  | .idle => if s.idleSeen t w then s.advance t .idle else s
  | _ => s

/-- WAKE (R114): an asynchronous trap that has arrived is delivered first (R359, R108). -/
def execWake (thread : Nat) (s : State) : Out :=
  match s.thread? thread with
  | none => .next s
  | some t =>
    if t.state ≠ .waiting then .next s
    else if t.pending ≠ [] ∧ t.hnd = false ∧ t.stopDue = none then .next (s.deliver t)
    else match t.wait with
      | none => .next s
      | some w => .next ({ s with pubBy := some (t.part, t.inst, t.ordinal) }.lookAgain t w)

end Sys2Proof.Machine
end

