-- ==== Sys2Proof/Machine/Dispatch.lean ====
section
/-! DEFINITION. The one dispatch from instructions to their meanings. -/

namespace Sys2Proof.Machine

/-- The effect of one step of the table (spec/95). -/
def exec (i : Instr) (s : State) : Host.Outcome State Fault Refusal :=
  match i with
  | .add d a b => Sys2Proof.Machine.execAdd d a b s
  | .sub d a b => Sys2Proof.Machine.execSub d a b s
  | .mul d a b => Sys2Proof.Machine.execMul d a b s
  | .mulh d a b => Sys2Proof.Machine.execMulh d a b s
  | .div d a b => Sys2Proof.Machine.execDiv d a b s
  | .rem d a b => Sys2Proof.Machine.execRem d a b s
  | .and d a b => Sys2Proof.Machine.execAnd d a b s
  | .or d a b => Sys2Proof.Machine.execOr d a b s
  | .xor d a b => Sys2Proof.Machine.execXor d a b s
  | .andn d a b => Sys2Proof.Machine.execAndn d a b s
  | .shl d a b => Sys2Proof.Machine.execShl d a b s
  | .shr d a b => Sys2Proof.Machine.execShr d a b s
  | .sar d a b => Sys2Proof.Machine.execSar d a b s
  | .min d a b => Sys2Proof.Machine.execMin d a b s
  | .max d a b => Sys2Proof.Machine.execMax d a b s
  | .minu d a b => Sys2Proof.Machine.execMinu d a b s
  | .maxu d a b => Sys2Proof.Machine.execMaxu d a b s
  | .clz d a => Sys2Proof.Machine.execClz d a s
  | .ctz d a => Sys2Proof.Machine.execCtz d a s
  | .popc d a => Sys2Proof.Machine.execPopc d a s
  | .sext8 d a => Sys2Proof.Machine.execSext8 d a s
  | .sext16 d a => Sys2Proof.Machine.execSext16 d a s
  | .sext32 d a => Sys2Proof.Machine.execSext32 d a s
  | .zext8 d a => Sys2Proof.Machine.execZext8 d a s
  | .zext16 d a => Sys2Proof.Machine.execZext16 d a s
  | .zext32 d a => Sys2Proof.Machine.execZext32 d a s
  | .addi d a n => Sys2Proof.Machine.execAddi d a n s
  | .movi d n => Sys2Proof.Machine.execMovi d n s
  | .movhi d n => Sys2Proof.Machine.execMovhi d n s
  | .lea d a b s0 => Sys2Proof.Machine.execLea d a b s0 s
  | .cmpEq p a b => Sys2Proof.Machine.execCmpEq p a b s
  | .cmpNe p a b => Sys2Proof.Machine.execCmpNe p a b s
  | .cmpLt p a b => Sys2Proof.Machine.execCmpLt p a b s
  | .cmpGe p a b => Sys2Proof.Machine.execCmpGe p a b s
  | .cmpLtu p a b => Sys2Proof.Machine.execCmpLtu p a b s
  | .cmpGeu p a b => Sys2Proof.Machine.execCmpGeu p a b s
  | .bfx d a w p => Sys2Proof.Machine.execBfx d a w p s
  | .bfi d a w p => Sys2Proof.Machine.execBfi d a w p s
  | .sel d a b n p => Sys2Proof.Machine.execSel d a b n p s
  | .bc p n o => Sys2Proof.Machine.execBc p n o s
  | .br o => Sys2Proof.Machine.execBr o s
  | .call o => Sys2Proof.Machine.execCall o s
  | .jmp a => Sys2Proof.Machine.execJmp a s
  | .ret => Sys2Proof.Machine.execRet s
  | .loop a n => Sys2Proof.Machine.execLoop a n s
  | .thrSpawn d a b => Sys2Proof.Machine.execThrSpawn d a b s
  | .thrExit => Sys2Proof.Machine.execThrExit s
  | .thrYield => Sys2Proof.Machine.execThrYield s
  | .bar a => Sys2Proof.Machine.execBar a s
  | .ld8 d a s0 o => Sys2Proof.Machine.execLd8 d a s0 o s
  | .ld16 d a s0 o => Sys2Proof.Machine.execLd16 d a s0 o s
  | .ld32 d a s0 o => Sys2Proof.Machine.execLd32 d a s0 o s
  | .ld64 d a s0 o => Sys2Proof.Machine.execLd64 d a s0 o s
  | .ld8s d a s0 o => Sys2Proof.Machine.execLd8s d a s0 o s
  | .ld16s d a s0 o => Sys2Proof.Machine.execLd16s d a s0 o s
  | .ld32s d a s0 o => Sys2Proof.Machine.execLd32s d a s0 o s
  | .st8 d a s0 o => Sys2Proof.Machine.execSt8 d a s0 o s
  | .st16 d a s0 o => Sys2Proof.Machine.execSt16 d a s0 o s
  | .st32 d a s0 o => Sys2Proof.Machine.execSt32 d a s0 o s
  | .st64 d a s0 o => Sys2Proof.Machine.execSt64 d a s0 o s
  | .ldp d a s0 o => Sys2Proof.Machine.execLdp d a s0 o s
  | .stp d a s0 o => Sys2Proof.Machine.execStp d a s0 o s
  | .atAdd d a b z s0 c => Sys2Proof.Machine.execAtAdd d a b z s0 c s
  | .atAnd d a b z s0 c => Sys2Proof.Machine.execAtAnd d a b z s0 c s
  | .atOr d a b z s0 c => Sys2Proof.Machine.execAtOr d a b z s0 c s
  | .atXor d a b z s0 c => Sys2Proof.Machine.execAtXor d a b z s0 c s
  | .atMin d a b z s0 c => Sys2Proof.Machine.execAtMin d a b z s0 c s
  | .atMax d a b z s0 c => Sys2Proof.Machine.execAtMax d a b z s0 c s
  | .atMinu d a b z s0 c => Sys2Proof.Machine.execAtMinu d a b z s0 c s
  | .atMaxu d a b z s0 c => Sys2Proof.Machine.execAtMaxu d a b z s0 c s
  | .atSwap d a b z s0 c => Sys2Proof.Machine.execAtSwap d a b z s0 c s
  | .atCas d a b z s0 c => Sys2Proof.Machine.execAtCas d a b z s0 c s
  | .atLd d a z s0 c => Sys2Proof.Machine.execAtLd d a z s0 c s
  | .atSt d a b z s0 c => Sys2Proof.Machine.execAtSt d a b z s0 c s
  | .phaseEnd => Sys2Proof.Machine.execPhaseEnd s
  | .phaseSync => Sys2Proof.Machine.execPhaseSync s
  | .pub a b => Sys2Proof.Machine.execPub a b s
  | .fenceE => Sys2Proof.Machine.execFenceE s
  | .pf a => Sys2Proof.Machine.execPf a s
  | .spill d n => Sys2Proof.Machine.execSpill d n s
  | .fill d n => Sys2Proof.Machine.execFill d n s
  | .waitEq d a s0 z o => Sys2Proof.Machine.execWaitEq d a s0 z o s
  | .waitNe d a s0 z o => Sys2Proof.Machine.execWaitNe d a s0 z o s
  | .ringDef h a => Sys2Proof.Machine.execRingDef h a s
  | .ringWait h a => Sys2Proof.Machine.execRingWait h a s
  | .ringRoom h a => Sys2Proof.Machine.execRingRoom h a s
  | .ringAdv h a => Sys2Proof.Machine.execRingAdv h a s
  | .ringPost h a => Sys2Proof.Machine.execRingPost h a s
  | .ringSlot d h b => Sys2Proof.Machine.execRingSlot d h b s
  | .ringStat d h => Sys2Proof.Machine.execRingStat d h s
  | .mxCfg a x => Sys2Proof.Machine.execMxCfg a x s
  | .mxLdb a b m => Sys2Proof.Machine.execMxLdb a b m s
  | .mxLdbGroups a b m x => Sys2Proof.Machine.execMxLdbGroups a b m x s
  | .mxRunRing h b c p => Sys2Proof.Machine.execMxRunRing h b c p s
  | .mxRunAstore a b c p => Sys2Proof.Machine.execMxRunAstore a b c p s
  | .mxRunStride a b c p x => Sys2Proof.Machine.execMxRunStride a b c p x s
  | .mxClr b => Sys2Proof.Machine.execMxClr b s
  | .mxOutRing h b c => Sys2Proof.Machine.execMxOutRing h b c s
  | .mxOutAstore a b c => Sys2Proof.Machine.execMxOutAstore a b c s
  | .mxOutRingExt h b c x => Sys2Proof.Machine.execMxOutRingExt h b c x s
  | .mxOutAstoreExt a b c x => Sys2Proof.Machine.execMxOutAstoreExt a b c x s
  | .mxWait => Sys2Proof.Machine.execMxWait s
  | .mxCommandPerform tile thread => Sys2Proof.Machine.execMxCommandPerform tile thread s
  | .spCfg a x => Sys2Proof.Machine.execSpCfg a x s
  | .spShape a b y x => Sys2Proof.Machine.execSpShape a b y x s
  | .spLdAstore a b k => Sys2Proof.Machine.execSpLdAstore a b k s
  | .spLdRing h b k => Sys2Proof.Machine.execSpLdRing h b k s
  | .spLdRecord a b k => Sys2Proof.Machine.execSpLdRecord a b k s
  | .spStAstore a b k => Sys2Proof.Machine.execSpStAstore a b k s
  | .spStRing h b k => Sys2Proof.Machine.execSpStRing h b k s
  | .spStExt r h a b k x => Sys2Proof.Machine.execSpStExt r h a b k x s
  | .spStRecord a b k x => Sys2Proof.Machine.execSpStRecord a b k x s
  | .spUp a b y => Sys2Proof.Machine.execSpUp a b y s
  | .spUpNosave a b y x => Sys2Proof.Machine.execSpUpNosave a b y x s
  | .spDown a b y => Sys2Proof.Machine.execSpDown a b y s
  | .spDownAcc a b y x => Sys2Proof.Machine.execSpDownAcc a b y x s
  | .spNorm k => Sys2Proof.Machine.execSpNorm k s
  | .spNormSet b k => Sys2Proof.Machine.execSpNormSet b k s
  | .spWait => Sys2Proof.Machine.execSpWait s
  | .skCommandPerform tile thread => Sys2Proof.Machine.execSkCommandPerform tile thread s
  | .cp a b c e => Sys2Proof.Machine.execCp a b c e s
  | .cpOffset a b c e x => Sys2Proof.Machine.execCpOffset a b c e x s
  | .cpExpect a b e x => Sys2Proof.Machine.execCpExpect a b e x s
  | .copyPerform tile thread => Sys2Proof.Machine.execCopyPerform tile thread s
  | .copyShort thread e => Sys2Proof.Machine.execCopyShort thread e s
  | .msSub h a x => Sys2Proof.Machine.execMsSub h a x s
  | .msPull h a b => Sys2Proof.Machine.execMsPull h a b s
  | .msPullDone h a b x => Sys2Proof.Machine.execMsPullDone h a b x s
  | .msStop h => Sys2Proof.Machine.execMsStop h s
  | .msePushSlot sub => Sys2Proof.Machine.execMsePushSlot sub s
  | .msePullSlot sub => Sys2Proof.Machine.execMsePullSlot sub s
  | .qClaim d a => Sys2Proof.Machine.execQClaim d a s
  | .qPub a b => Sys2Proof.Machine.execQPub a b s
  | .qWait a => Sys2Proof.Machine.execQWait a s
  | .qNote a => Sys2Proof.Machine.execQNote a s
  | .grLaunch d a b => Sys2Proof.Machine.execGrLaunch d a b s
  | .fireBegin => Sys2Proof.Machine.execFireBegin s
  | .fireEnd => Sys2Proof.Machine.execFireEnd s
  | .modeReq a => Sys2Proof.Machine.execModeReq a s
  | .markInj a b => Sys2Proof.Machine.execMarkInj a b s
  | .markWait a => Sys2Proof.Machine.execMarkWait a s
  | .pageReq a => Sys2Proof.Machine.execPageReq a s
  | .pageDrop a => Sys2Proof.Machine.execPageDrop a s
  | .rmonRd d a => Sys2Proof.Machine.execRmonRd d a s
  | .enRd d a => Sys2Proof.Machine.execEnRd d a s
  | .enSub d a b => Sys2Proof.Machine.execEnSub d a b s
  | .enSet a b => Sys2Proof.Machine.execEnSet a b s
  | .trap c => Sys2Proof.Machine.execTrap c s
  | .tret => Sys2Proof.Machine.execTret s
  | .csrRd d r => Sys2Proof.Machine.execCsrRd d r s
  | .csrWr a r => Sys2Proof.Machine.execCsrWr a r s
  | .idle => Sys2Proof.Machine.execIdle s
  | .timeRd d => Sys2Proof.Machine.execTimeRd d s
  | .dbgBrk c => Sys2Proof.Machine.execDbgBrk c s
  | .trcMark a x => Sys2Proof.Machine.execTrcMark a x s
  | .trcFrz => Sys2Proof.Machine.execTrcFrz s
  | .ckptReq => Sys2Proof.Machine.execCkptReq s
  | .iadd a b s0 n v => Sys2Proof.Machine.execIadd a b s0 n v s
  | .isub a b s0 n v => Sys2Proof.Machine.execIsub a b s0 n v s
  | .imul a b s0 n v => Sys2Proof.Machine.execImul a b s0 n v s
  | .imulh a b s0 n => Sys2Proof.Machine.execImulh a b s0 n s
  | .iand a b s0 n => Sys2Proof.Machine.execIand a b s0 n s
  | .ior a b s0 n => Sys2Proof.Machine.execIor a b s0 n s
  | .ixor a b s0 n => Sys2Proof.Machine.execIxor a b s0 n s
  | .ishl a b s0 n => Sys2Proof.Machine.execIshl a b s0 n s
  | .ishr a b s0 n => Sys2Proof.Machine.execIshr a b s0 n s
  | .isar a b s0 n => Sys2Proof.Machine.execIsar a b s0 n s
  | .imin a b s0 n => Sys2Proof.Machine.execImin a b s0 n s
  | .imax a b s0 n => Sys2Proof.Machine.execImax a b s0 n s
  | .iminu a b s0 n => Sys2Proof.Machine.execIminu a b s0 n s
  | .imaxu a b s0 n => Sys2Proof.Machine.execImaxu a b s0 n s
  | .iabs a b s0 n v => Sys2Proof.Machine.execIabs a b s0 n v s
  | .icmp a b s0 n v => Sys2Proof.Machine.execIcmp a b s0 n v s
  | .fadd a b s0 n v => Sys2Proof.Machine.execFadd a b s0 n v s
  | .fsub a b s0 n v => Sys2Proof.Machine.execFsub a b s0 n v s
  | .fmul a b s0 n v => Sys2Proof.Machine.execFmul a b s0 n v s
  | .ffma a b s0 n v => Sys2Proof.Machine.execFfma a b s0 n v s
  | .fmin a b s0 n => Sys2Proof.Machine.execFmin a b s0 n s
  | .fmax a b s0 n => Sys2Proof.Machine.execFmax a b s0 n s
  | .fabs a b s0 n => Sys2Proof.Machine.execFabs a b s0 n s
  | .fneg a b s0 n => Sys2Proof.Machine.execFneg a b s0 n s
  | .fcmp a b s0 n v => Sys2Proof.Machine.execFcmp a b s0 n v s
  | .rndi a b s0 n v => Sys2Proof.Machine.execRndi a b s0 n v s
  | .fxp a b s0 n => Sys2Proof.Machine.execFxp a b s0 n s
  | .expins a b s0 n => Sys2Proof.Machine.execExpins a b s0 n s
  | .expext a b s0 n => Sys2Proof.Machine.execExpext a b s0 n s
  | .frcp a b s0 n => Sys2Proof.Machine.execFrcp a b s0 n s
  | .frsq a b s0 n => Sys2Proof.Machine.execFrsq a b s0 n s
  | .badd2 a b s0 n v => Sys2Proof.Machine.execBadd2 a b s0 n v s
  | .bsub2 a b s0 n v => Sys2Proof.Machine.execBsub2 a b s0 n v s
  | .bmul2 a b s0 n v => Sys2Proof.Machine.execBmul2 a b s0 n v s
  | .bfma2 a b s0 n v => Sys2Proof.Machine.execBfma2 a b s0 n v s
  | .bmin2 a b s0 n => Sys2Proof.Machine.execBmin2 a b s0 n s
  | .bmax2 a b s0 n => Sys2Proof.Machine.execBmax2 a b s0 n s
  | .i2f a b s0 n v => Sys2Proof.Machine.execI2f a b s0 n v s
  | .f2i a b s0 n v => Sys2Proof.Machine.execF2i a b s0 n v s
  | .f2b a b s0 n v => Sys2Proof.Machine.execF2b a b s0 n v s
  | .b2f a b s0 n => Sys2Proof.Machine.execB2f a b s0 n s
  | .b2fh a b s0 n => Sys2Proof.Machine.execB2fh a b s0 n s
  | .esel a b s0 n => Sys2Proof.Machine.execEsel a b s0 n s
  | .steer a b s0 n => Sys2Proof.Machine.execSteer a b s0 n s
  | .merge a b s0 n => Sys2Proof.Machine.execMerge a b s0 n s
  | .mergeSecondEmit page slot => Sys2Proof.Machine.execMergeSecondEmit page slot s
  | .gate a b s0 n => Sys2Proof.Machine.execGate a b s0 n s
  | .dup a b s0 n => Sys2Proof.Machine.execDup a b s0 n s
  | .dupCopyEmit page slot => Sys2Proof.Machine.execDupCopyEmit page slot s
  | .acc a b s0 n v => Sys2Proof.Machine.execAcc a b s0 n v s
  | .tagset a b s0 n => Sys2Proof.Machine.execTagset a b s0 n s
  | .pass a b s0 n => Sys2Proof.Machine.execPass a b s0 n s
  | .ends a b s0 n => Sys2Proof.Machine.execEnds a b s0 n s
  | .cnt a b s0 n => Sys2Proof.Machine.execCnt a b s0 n s
  | .agl n => Sys2Proof.Machine.execAgl n s
  | .ags n => Sys2Proof.Machine.execAgs n s
  | .agc n => Sys2Proof.Machine.execAgc n s
  | .agAccess page slot => Sys2Proof.Machine.execAgAccess page slot s
  | .rin a b n => Sys2Proof.Machine.execRin a b n s
  | .rout n => Sys2Proof.Machine.execRout n s
  | .rep a b n => Sys2Proof.Machine.execRep a b n s
  | .outputPortWrite page port => Sys2Proof.Machine.execOutputPortWrite page port s
  | .portHeldTokenWrite page port => Sys2Proof.Machine.execPortHeldTokenWrite page port s
  | .tokenArrival page k => Sys2Proof.Machine.execTokenArrival page k s
  | .queueTurnRelease page slot q => Sys2Proof.Machine.execQueueTurnRelease page slot q s
  | .markerAlign page pos => Sys2Proof.Machine.execMarkerAlign page pos s
  | .rsuFire page row => Sys2Proof.Machine.execRsuFire page row s
  | .rsuScanEmit page row => Sys2Proof.Machine.execRsuScanEmit page row s
  | .pagePlace part region => Sys2Proof.Machine.execPagePlace part region s
  | .pageEvict part => Sys2Proof.Machine.execPageEvict part s
  | .backEdgeMarkerTake part inst actor h => Sys2Proof.Machine.execBackEdgeMarkerTake part inst actor h s
  | .forcedCut part inst => Sys2Proof.Machine.execForcedCut part inst s
  | .queueLaunch part q => Sys2Proof.Machine.execQueueLaunch part q s
  | .instanceEnd part inst => Sys2Proof.Machine.execInstanceEnd part inst s
  | .schedulerPreempt part inst => Sys2Proof.Machine.execSchedulerPreempt part inst s
  | .schedulerResume part inst => Sys2Proof.Machine.execSchedulerResume part inst s
  | .wake thread => Sys2Proof.Machine.execWake thread s
  | .idleTimeout thread => Sys2Proof.Machine.execIdleTimeout thread s
  | .asyncTrapDelivery thread => Sys2Proof.Machine.execAsyncTrapDelivery thread s
  | .breakpointMatch thread => Sys2Proof.Machine.execBreakpointMatch thread s
  | .recordBacklogWrite part => Sys2Proof.Machine.execRecordBacklogWrite part s
  | .xdone part id => Sys2Proof.Machine.execXdone part id s
  | .instctlPreempt part inst => Sys2Proof.Machine.execInstctlPreempt part inst s
  | .instctlResume part inst => Sys2Proof.Machine.execInstctlResume part inst s
  | .instctlEnd part inst => Sys2Proof.Machine.execInstctlEnd part inst s
  | .tlbInvalidate part v => Sys2Proof.Machine.execTlbInvalidate part v s
  | .qSync part q => Sys2Proof.Machine.execQSync part q s
  | .qSyncHalt part q => Sys2Proof.Machine.execQSyncHalt part q s
  | .ctxdataRead thread => Sys2Proof.Machine.execCtxdataRead thread s
  | .ctxdataWrite thread v => Sys2Proof.Machine.execCtxdataWrite thread v s
  | .trcdataRead tile => Sys2Proof.Machine.execTrcdataRead tile s
  | .traceUnfreeze tile => Sys2Proof.Machine.execTraceUnfreeze tile s
  | .traceFreeze tile => Sys2Proof.Machine.execTraceFreeze tile s
  | .sample tile => Sys2Proof.Machine.execSample tile s
  | .timeStep ns => Sys2Proof.Machine.execTimeStep ns s
  | .timeSlew v => Sys2Proof.Machine.execTimeSlew v s
  | .registerWrite thread r v => Sys2Proof.Machine.execRegisterWrite thread r v s
  | .queueNotify fn q => Sys2Proof.Machine.execQueueNotify fn q s
  | .queueNotifyIndexed fn v => Sys2Proof.Machine.execQueueNotifyIndexed fn v s
  | .hostPublication part q => Sys2Proof.Machine.execHostPublication part q s
  | .ingestArrival part q k => Sys2Proof.Machine.execIngestArrival part q k s
  | .ingestDeadline part q => Sys2Proof.Machine.execIngestDeadline part q s
  | .hostApertureWrite fn va bytes => Sys2Proof.Machine.execHostApertureWrite fn va bytes s
  | .hostApertureRead fn va n => Sys2Proof.Machine.execHostApertureRead fn va n s
  | .arcArrival link ring bytes => Sys2Proof.Machine.execArcArrival link ring bytes s
  | .arcAdvanceReturn link ring n => Sys2Proof.Machine.execArcAdvanceReturn link ring n s
  | .linkBeatError link => Sys2Proof.Machine.execLinkBeatError link s
  | .linkDown link => Sys2Proof.Machine.execLinkDown link s
  | .linkReturn link => Sys2Proof.Machine.execLinkReturn link s
  | .attachErr m => Sys2Proof.Machine.execAttachErr m s
  | .thermal island => Sys2Proof.Machine.execThermal island s
  | .meterFlush meter => Sys2Proof.Machine.execMeterFlush meter s
  | .intervalEnd => Sys2Proof.Machine.execIntervalEnd s
  | .calibrationTrim => Sys2Proof.Machine.execCalibrationTrim s
  | .checkpointTimer part => Sys2Proof.Machine.execCheckpointTimer part s
  | .checkpointComplete part => Sys2Proof.Machine.execCheckpointComplete part s
  | .checkpointImageWrite part => Sys2Proof.Machine.execCheckpointImageWrite part s
  | .create side part arg0 arg1 => Sys2Proof.Machine.execCreate side part arg0 arg1 s
  | .destroy side part arg0 arg1 => Sys2Proof.Machine.execDestroy side part arg0 arg1 s
  | .resize side part arg0 arg1 => Sys2Proof.Machine.execResize side part arg0 arg1 s
  | .assign side part arg0 arg1 => Sys2Proof.Machine.execAssign side part arg0 arg1 s
  | .release side part arg0 arg1 => Sys2Proof.Machine.execRelease side part arg0 arg1 s
  | .partitionReset side part arg0 arg1 => Sys2Proof.Machine.execPartitionReset side part arg0 arg1 s
  | .restore side part arg0 arg1 => Sys2Proof.Machine.execRestore side part arg0 arg1 s
  | .setpool side part arg0 arg1 => Sys2Proof.Machine.execSetpool side part arg0 arg1 s
  | .arcs side part arg0 arg1 => Sys2Proof.Machine.execArcs side part arg0 arg1 s
  | .retire side part arg0 arg1 => Sys2Proof.Machine.execRetire side part arg0 arg1 s
  | .enset side part arg0 arg1 => Sys2Proof.Machine.execEnset side part arg0 arg1 s
  | .status => Sys2Proof.Machine.execStatus s
  | .logrd n => Sys2Proof.Machine.execLogrd n s
  | .enrd acct item => Sys2Proof.Machine.execEnrd acct item s
  | .wearrd n => Sys2Proof.Machine.execWearrd n s
  | .attest nonce => Sys2Proof.Machine.execAttest nonce s
  | .pctl ctr sig cmd arg0 arg1 => Sys2Proof.Machine.execPctl ctr sig cmd arg0 arg1 s
  | .dump ctr sig part => Sys2Proof.Machine.execDump ctr sig part s
  | .kekset ctr sig key => Sys2Proof.Machine.execKekset ctr sig key s
  | .reset ctr sig => Sys2Proof.Machine.execReset ctr sig s
  | .fwload ctr sig version index image => Sys2Proof.Machine.execFwload ctr sig version index image s
  | .unlockNonce => Sys2Proof.Machine.execUnlockNonce s
  | .unlockToken token => Sys2Proof.Machine.execUnlockToken token s
  | .provision token key => Sys2Proof.Machine.execProvision token key s
  | .standbyBoot => Sys2Proof.Machine.execStandbyBoot s
  | .mainPowerGood good0 good1 hbmOk => Sys2Proof.Machine.execMainPowerGood good0 good1 hbmOk s
  | .calibrationDone => Sys2Proof.Machine.execCalibrationDone s
  | .meminitDone => Sys2Proof.Machine.execMeminitDone s
  | .attachTrainingDone ok => Sys2Proof.Machine.execAttachTrainingDone ok s
  | .ready => Sys2Proof.Machine.execReady s
  | .arcSlotSend link ring => Sys2Proof.Machine.execArcSlotSend link ring s
  | .powerLoss => Sys2Proof.Machine.execPowerLoss s

end Sys2Proof.Machine
end

