-- ==== Sys2Proof/Machine/Settle.lean ====
section
/-! DEFINITION. What follows at once from what a step has done: cuts that are complete or can start (R253, R254), falls
of balances (R343, R344), pages whose thread has gone, and held input (R14, R403) with what a log supplies (R403). -/

namespace Sys2Proof.Machine

/-! ### Cuts -/

/-- The cut of an instance completes if it can, once the workers that wait at `q.wait` with no command left have aligned
(R251); else what waits to start starts. An instance whose replay diverged stops first (R403). -/
def State.settleInst (s : State) (i : Inst) : State :=
  if i.stopDue then
    let s1 := s.stopInst i.part i.num .stopped
    match s1.inst? i.part i.num with
    | some j => s1.setInst { j with stopDue := false }
    | none => s1
  else if i.cut.isSome then ((s.threadsOf i.part i.num).foldl State.alignWaiter s).cutCheck i
  else if i.pending.isSome || i.goOn.isSome then s.startNext i.part i.num
  else s

/-! ### Threads -/

/-- A stop that was due is taken once the thread's commands have completed (R284, R308, R315, R150). -/
def State.takeStop (s : State) (num : Nat) : State :=
  match s.thread? num with
  | none => s
  | some t => match t.stopDue with
    | some d => if s.stopWaits t then s else s.stopNow t d
    | none => s

/-- The expectations of a thread whose watchdogs have run down: no copy comes between (R314). -/
def State.copiesShort (s : State) (num : Nat) : State :=
  (List.range (((s.thread? num).map fun t => t.expects.size).getD 0)).foldl (fun s e => s.copyShort num e) s

/-! ### Pages -/

/-- A page instance whose thread has gone is discarded (R234, R241). -/
def State.dropOrphan (s : State) (p : Page) : State :=
  if (s.pageThread p).isSome then s
  else let s1 := if p.region.isSome then s.evict p.id false else s; { s1 with pages := tabErase s1.pages p.id }

/-! ### Held input -/

/-- Whether a piece of input is held. -/
def State.holdsInput (s : State) (h : HeldInput) : Bool :=
  match h with
  | .publication p _ | .ingest p _ _ _ | .sequence p _ _ _ _ => s.holds p
  | .requeue _ _ _ => false
  | .write fn _ _ => (s.func fn).part.any s.replaying
  | .arc link ring _ => (s.arc link ring true).any fun e => s.replaying e.1.part
  | .notify _ _ => !s.dev.ready

/-- A piece of input takes its effect. -/
def State.takeInput (s : State) (h : HeldInput) : State :=
  match h with
  | .publication p q => s.hostPublish p q
  | .ingest p q k time => s.ingest p q k time
  | .sequence p q pos v time => s.observeKept p q pos v time
  | .requeue p q recd => s.requeueTask p q recd
  | .write fn va bs => s.hostWrite fn va bs
  | .arc link ring bs => s.arcArrive link ring bs
  | .notify fn q => s.notifyFn fn q

/-- Input that is no longer held takes its effect, in arrival order. -/
def State.releaseHeld (s : State) : State :=
  if s.held = [] then s
  else
    let (keep, free) := s.held.partition s.holdsInput
    free.foldl State.takeInput { s with held := keep }

/-! ### Replay -/

/-- The data records (TYPE 12) that follow the log's next event, as bytes. -/
def logData (r : List LogRec) : List Byte := (r.takeWhile fun e => decide (e.typ = 12)).flatMap fun e => leBytes 8 e.b.toNat

/-- Takes the log's next event with the data records that follow it. -/
def State.popEvent (s : State) (part : Nat) : State :=
  let n := (((s.part part).replay.drop 1).takeWhile fun e => decide (e.typ = 12)).length
  (List.range (n + 1)).foldl (fun s _ => s.popReplay part) s

/-- Whether the thread of a logged event is there to perform it: it is not, once its instance has diverged and stopped. -/
def State.performs (s : State) (part : Nat) (r : LogRec) : Bool :=
  (s.threadsOf part r.inst).any (fun t => decide (t.ordinal = r.ordinal)) && (s.inst? part r.inst).any fun i => !i.diverged

/-- The log's next event, if the log supplies it (R403): a host publication, an ingest slot, an arc arrival, a host
write; a cut that no thread requests; a placement of a page that is resident. An event that no thread is left to perform is
passed over, and a queue whose launch comes next is mapped. -/
def State.supplyOne (s : State) (part : Nat) : Option State :=
  let p := s.part part
  match p.replay with
  | [] => none
  | r :: rest =>
    let data := logData rest
    match r.typ with
    | 2 =>
      if r.ordinal ≠ 0xFFFF then (if s.performs part r then none else some (s.popEvent part))
      else match s.mapQueue part r.a with
        | .ok s1 q =>
          (match s1.newtAddr part q.q .write (q.pos q.tail) 64 with
          | (s2, .ok pa) => some (((s2.popEvent part).publish (cellsAt pa data)).hostPublish part r.a)
          | (s2, .error _) => some (s2.popEvent part))
        | .wait _ => none
        | .bad s1 _ _ => some (s1.popEvent part)
    | 4 =>
      match s.mapQueue part (r.a % 2 ^ 31) with
      | .ok s1 q => if q.closed.contains (q.next % q.size) then none
          else some (if bit r.a 31 then (s1.popEvent part).nullSlot q else (s1.popEvent part).hostSlot q r.b.toNat)
      | .wait _ => none
      | .bad s1 _ _ => some (s1.popEvent part)
    | 5 =>
      match s.arc (r.a % 16) (r.a / 16 % 4096) true with
      | none => some (s.popEvent part)
      | some (i, g) =>
        match i.endTile g.cons with
        | none => none
        | some tile =>
          let cb := apertureBase tile + g.ccb
          let count := s.readNat cb 8
          if tile ≥ 192 ∨ count - s.readNat (cb + 8) 8 ≥ g.depth then none
          else some (((s.popEvent part).publish (cellsAt cb (leBytes 8 (count + 1)))).logEvent part { r with b := word (count + 1) })
    | 10 =>
      match s.inst? part r.inst with
      | none => some (s.popEvent part)
      | some i =>
        if i.state = .running ∧ i.cut = none ∧ i.pending = none ∧ Nat.land r.b.toNat 0x21 = 0 then
          some (s.startCut i r.b.toNat 0 0 (some (if bit r.b.toNat 3 then p.cdl else s.pdl part)))
        else none
    | 6 =>
      if (s.pages.any fun e => e.2.region.isSome && decide (e.2.part = part) && r.places e.2) || !(s.performs part r)
      then some (s.popEvent part) else none
    | 11 =>
      match p.functions with
      | f :: _ => some ((s.popEvent part).hostWrite f r.b.toNat (data.take r.a))
      | [] => some (s.popEvent part)
    | 12 => some (s.popEvent part)
    | 9 =>
      if (s.queue? part r.a).isSome then none
      else match s.mapQueue part r.a with
        | .ok s1 _ => some s1
        | .wait _ => none
        | .bad s1 _ _ => some (s1.popEvent part)
    | _ => if s.performs part r then none else some (s.popEvent part)

/-- Supplies events until the log's next one is a thread's. -/
def State.supply (s : State) (part : Nat) : Nat → State
  | 0 => s
  | n + 1 => match s.supplyOne part with
    | none => s
    | some s1 => s1.supply part n

/-- The replays of every partition go on. -/
def State.supplyAll (s : State) : State :=
  s.parts.foldl (fun s e => if s.replaying e.1 then s.supply e.1 (s.part e.1).replay.length else s) s

/-! ### Islands that are off (R417) -/

/-- The islands whose units perform an event, of those that do nothing at point 0 or 1: tiles, Newt, the Diones, Encke, the
MSEs (log 140). -/
def State.islandsOf (s : State) (i : Instr) : List Nat :=
  let region (page : Nat) : List Nat := (((s.page? page).bind fun (p : Page) => p.region).map s.islandOf).toList
  let core (thread : Nat) : List Nat := ((s.thread? thread).map fun (t : Thread) => s.islandOf t.tile).toList
  let mse (sub : Nat) : List Nat := ((s.subs.find? fun u => decide (u.id = sub)).map fun u => 240 + u.mse % 16 / 2).toList
  match i with
  | .mxCommandPerform tile _ | .skCommandPerform tile _ | .copyPerform tile _ => [s.islandOf tile]
  | .mergeSecondEmit page _ | .dupCopyEmit page _ | .agAccess page _ | .outputPortWrite page _ | .portHeldTokenWrite page _
  | .tokenArrival page _ | .queueTurnRelease page _ _ | .markerAlign page _ | .rsuFire page _ | .rsuScanEmit page _ => region page
  | .wake thread | .asyncTrapDelivery thread | .breakpointMatch thread => core thread
  | .msePushSlot sub | .msePullSlot sub => mse sub
  | .pagePlace _ r => [if dieOf r = 0 then 213 else 229]
  | .pageEvict part => (((s.victim part).bind fun (p : Page) => p.region).map fun r => if dieOf r = 0 then 213 else 229).toList
  | .queueLaunch _ _ | .ingestDeadline _ _ => [212, 228]
  | .checkpointTimer _ | .checkpointImageWrite _ | .checkpointComplete _ => [215, 231]
  | _ => []

/-- Whether an island runs: at point 0 it is off, at point 1 it only retains its state (R417). -/
def State.islandRuns (s : State) (island : Nat) : Bool := decide (tabGet 7 s.dev.points island ≥ 2)

/-- Whether the units that a turn needs run. -/
def State.turnRuns (s : State) (t : Turn) : Bool :=
  match t with
  | .core tile => s.islandRuns (s.islandOf tile)
  | .elem page _ => ((s.page? page).bind fun (p : Page) => p.region).all fun r => s.islandRuns (s.islandOf r)
  | .event i => (s.islandsOf i).all s.islandRuns
  | _ => true

/-! ### Time (R255, R344) -/

/-- How much of a passing of time passes in one step: no more than up to the next deadline of a cut, the time by which the
cuts of an exhaustion start, or the expiry of a watchdog, so that what is due then comes no later. -/
def State.passStep (s : State) (ns : Nat) : Nat :=
  let dues := s.insts.filterMap (fun i => i.cut.bind Cut.deadline) ++ s.accounts.filterMap (fun e => e.2.cutBy) ++
    s.threads.flatMap fun e => (e.2.expects.toList.filter Expect.armed).map fun x => s.dev.elapsed + x.watchdog
  (dues.filter fun d => decide (s.dev.elapsed < d)).foldl (fun n d => min n (d - s.dev.elapsed)) ns

/-! ### Publications that wait for a copy (R399, R400) -/

/-- Whether Encke has yet to copy the granule of a partition's image space that holds an offset. -/
def Partition.uncopied (p : Partition) (off : Nat) : Bool :=
  (p.ckImage.getD []).zipIdx.any fun e => match e.1 with
    | .granules lo n => decide (lo ≤ off ∧ off < lo + 65536 * n) &&
        decide (e.2 ≠ 0 ∨ p.ckChunkPos < 64 + 65536 * ((off - lo) / 65536 + 1))
    | _ => false

/-- The partition with a granule still to be copied that the publications made since a state change: they are held until the
copy is made. -/
def State.awaitsCopy (before after : State) : Option Nat :=
  if before.parts.all fun e => decide (e.2.ckImage = none) then none
  else
    let cells := (after.hist.take (after.pubCount - before.pubCount)).flatMap fun h => h.2.1.map Prod.fst ++ h.2.2.map fun b => 64 * b.1
    (before.parts.find? fun e => cells.any fun pa => (e.2.imageOff pa).any e.2.uncopied).map Prod.fst

/-- A turn whose publications are held does not happen: the thread that its core chose waits for Encke to go on, and what it
would have begun is as it was (log 142). -/
def State.copyWaits (before : State) (turn : Turn) (part : Nat) : State :=
  match turn with
  | .core tile =>
    match (before.choose tile).bind fun k => before.thread? (4 * tile + k) with
    | some t => before.setThread { t with copying := some (part, before.copyPos part) }
    | none => before
  | _ => before

/-- Whether the publications of a turn are held for a copy: those of the partition's agents, the host and the links. Encke's
own and those of the control plane are not (log 142). -/
def Turn.copyHolds : Turn → Bool
  | .core _ | .elem _ _ => true
  | .event i => match i with
    | .mxCommandPerform _ _ | .skCommandPerform _ _ | .copyPerform _ _ | .msePushSlot _ | .msePullSlot _ | .agAccess _ _
    | .outputPortWrite _ _ | .portHeldTokenWrite _ _ | .tokenArrival _ _ | .markerAlign _ _ | .rsuFire _ _ | .rsuScanEmit _ _
    | .mergeSecondEmit _ _ | .dupCopyEmit _ _ | .queueTurnRelease _ _ _ | .wake _ | .asyncTrapDelivery _ | .queueLaunch _ _
    | .hostPublication _ _ | .ingestArrival _ _ _ | .ingestDeadline _ _ | .hostApertureWrite _ _ _ | .arcArrival _ _ _
    | .arcAdvanceReturn _ _ _ => true
    | _ => false
  | _ => false

/-! ### All of it -/

/-- What follows a step at once. -/
def State.settle (s : State) : State :=
  let short := s.threads.foldl (fun s e => if e.2.expects.toList.any Expect.armed then s.copiesShort e.1 else s) s
  let s0 := short.threads.foldl (fun s e => if e.2.stopDue.isSome then s.takeStop e.1 else s) short
  let s1 := s0.insts.foldl State.settleInst s0
  let s2 := s1.accountsDue.foldl State.accountDue s1
  let s3 := s2.pages.foldl (fun s e => s.dropOrphan e.2) s2
  s3.supplyAll.releaseHeld

end Sys2Proof.Machine
end

