-- ==== Sys2Proof/Machine/Step.lean ====
section
/-! DEFINITION. One step of the part, and the placing of an instruction where the next step fetches. -/

namespace Sys2Proof.Machine

/-- What an issue on a tile comes to: a thread whose event had to wait for a replay has not issued (R85, R403). -/
def issued (before : State) (tile num : Nat) : Host.Outcome State Fault Refusal → Host.Outcome State Fault Refusal
  | .next t => .next (if (t.thread? num).any t.heldBack then t.unchosen before tile else t)
  | .fault f => .fault f
  | .refused r => .refused r

/-- Runs what a turn has fetched. -/
def runFetched : Fetched → Host.Outcome State Fault Refusal
  | .run i s => exec i s
  | .issue i before s => issued before (s.cur / 4) s.cur (exec i s)
  | .done s => .next s

/-- An event that is no instruction: what comes over the attach does not arrive while the attach is down (R12), and a request
waits behind those that have arrived (R406). -/
def runEvent (i : Instr) (s : State) : Host.Outcome State Fault Refusal :=
  if overAttach i && !s.dev.attach then .next s
  else if isRequest i && !s.teth.working && !s.teth.inbox.isEmpty then .next s
  else exec i s

/-- Tethys acts on the first request that has arrived; it refuses a command code that it does not know (R406). -/
def serve (s : State) : Host.Outcome State Fault Refusal :=
  if !s.teth.booted || s.teth.working then .next s
  else
    match s.teth.inbox with
    | [] => .next s
    | r :: rest =>
      let s1 : State := { s with teth := { s.teth with inbox := rest } }
      match r.instr with
      | some i => if isRequest i then exec i s1 else .next s1.refuse
      | none => .next s1.refuse

/-- One turn. A control or element instruction runs only through a core's or an element's turn. Nothing comes of the turn of a
unit that is off (R417). -/
def act (turn : Turn) (s : State) : Host.Outcome State Fault Refusal :=
  if !(s.turnRuns turn) then .next s else
  match turn with
  | .core tile => runFetched (s.coreTurn tile)
  | .elem page slot => runFetched (s.elemTurn page slot)
  | .event i => if encodeNat i = [] then runEvent i s else .next s
  | .pass ns => .next (s.pass (s.passStep ns))
  | .memError pa => .next (s.memFault pa)
  | .softError u => .next (s.softFault u)
  | .tlbDrop slice part va => .next (s.tlbReplace slice part va)
  | .request r => .next (s.requestArrives r)
  | .serve => serve s
  | .tethysDown => .next s.tethysDown
  | .portRead tile reg => .next (s.portRead tile reg)
  | .portWrite tile reg value => .next (s.portWrite tile reg value)
  | .tileFails tile => .next (s.tileFails tile)
  | .unitFails unit => .next (s.unitFails unit)
  | .rowFails pa => .next (s.rowFails pa)
  | .monitor => .next s.monitorRetire
  | .pointAsked island point => .next (s.pointAsked island point)
  | .flashRefused => .next s.flashRefused
  | .quotaCuts acct => .next (s.quotaCuts acct)

/-- A turn, unless what it publishes is held until Encke has copied what it changes (R399, R400). -/
def heldForCopy (turn : Turn) (before : State) : Host.Outcome State Fault Refusal → Host.Outcome State Fault Refusal
  | .next t => .next (if turn.copyHolds then (match before.awaitsCopy t with | some p => before.copyWaits turn p | none => t) else t)
  | .fault f => .fault f
  | .refused r => .refused r

/-- What follows at once from a next state. -/
def settled : Host.Outcome State Fault Refusal → Host.Outcome State Fault Refusal
  | .next t => .next t.settle
  | .fault f => .fault f
  | .refused r => .refused r

/-- A turn and what follows at once. -/
def taken (turn : Turn) (s : State) : Host.Outcome State Fault Refusal := settled (heldForCopy turn s (act turn s))

/-- One step: the first of the turns the state holds, or the turn the free schedule gives (log 3), and what follows
at once. -/
def step (s : State) : Host.Outcome State Fault Refusal :=
  match s.turns with
  | t :: r => taken t { s with turns := r, steps := s.steps + 1, pubBy := none }
  | [] => taken (Config.turn s.steps) { s with steps := s.steps + 1, pubBy := none }

/-- The words of an instruction as memory holds them: each little-endian, the first lowest (R3, R26). -/
def fetchBytes (w : Nat) : List Byte := leBytes 8 w

/-- A state in which thread 0 of partition 0 stands Ready at level S before the words placed at
physical address 0x10_0000, under a 64 GiB identity page (R140, R141), and its core has the next turn. -/
def State.withControlWord (s : State) (w : Nat) : State :=
  let part : Partition := { s.part 0 with exists_ := true, tiles := [0], granules := [0], functions := [0], root := 0x2000 }
  let mem := s.mem.write (cellsAt 0x2000 (leBytes 8 0x4001) ++ cellsAt 0x4000 (leBytes 8 0x3F) ++ cellsAt 0x100000 (fetchBytes w))
  let s1 := { s with mem, turns := [.core 0] }
  let s2 := (s1.setPart 0 part).setTile 0 { s1.tile 0 with present := true, owner := some 0 }
  s2.setThread { num := 0, pc := 0x100000, sw := swOf 1 0 0 0, maxLevel := 1 }

/-- A state in which the element word stands in slot 0 of a resident page of thread 0, whose four
queues hold a token each, and the element has the next turn. -/
def State.withElementWord (s : State) (w : Nat) : State :=
  let q (k : Nat) : Nat × Queue := (k, { toks := [{}] })
  let page : Page := { id := 0, part := 0, inst := 0, ordinal := 0, index := 0, wanted := true, region := some 0,
                       placed := true, image := zeros 16 ++ leBytes 4 w ++ zeros 4076,
                       st := { queues := [q 0, q 1, q 2, q 3] } }
  { (s.withControlWord 0).setPage page with turns := [.elem 0 0] }

/-- The state with an instruction stored where the next step fetches: a control instruction at the
program counter of thread 0, an element operation in slot 0 of a resident page (log 14). -/
def State.withFetchWord (s : State) (_nbits w : Nat) : State :=
  if readAsElement w then s.withElementWord w else s.withControlWord w

end Sys2Proof.Machine
end

