-- ==== Sys2Proof/Certificates/Slice0/Obligations.lean ====
section
/-! DEFINITION. The statements about the model. Each docstring names the rules of spec/ that it formalises. -/

namespace Sys2Proof.Claims

open Sys2Proof Sys2Proof.Machine

/-! ### Vocabulary -/

/-- The thread that acts is live and Ready (R84). -/
abbrev Issues (s : State) (t : Thread) : Prop := s.thread? s.cur = some t ∧ t.state = .ready

/-- A thread that goes on `n` bytes further on. -/
def goesOn (t : Thread) (n : Nat) : Thread := { t with pc := t.pc + word n, state := .ready, wait := none }

/-- `b` is `a` but for what its trace unit has recorded (R386). -/
def TraceOnly (a b : Tile) : Prop :=
  b = { a with trace := b.trace, trcWptr := b.trcWptr, trcFrozen := b.trcFrozen, trcCause := b.trcCause, trcPost := b.trcPost
               trcRecent := b.trcRecent, trcDrop := b.trcDrop, trcDovf := b.trcDovf }

/-- From `s` to `u` only the thread itself changes, to `t'`, beside the energy account of the work (R30): every
other thread, every tile, page, queue, partition and device register, and every byte of memory stays. -/
def OnlyThread (s u : State) (t t' : Thread) : Prop :=
  u = { s with threads := tabSet s.threads t'.num t', meters := u.meters, accounts := u.accounts, pubBy := some (t.part, t.inst, t.ordinal) }

/-- As `OnlyThread`, and the trace units may have recorded the event. -/
def ThreadAndTrace (s u : State) (t t' : Thread) : Prop :=
  u = { s with threads := tabSet s.threads t'.num t', tiles := u.tiles, meters := u.meters, accounts := u.accounts, pubBy := some (t.part, t.inst, t.ordinal) } ∧
  ∀ n, TraceOnly (s.tile n) (u.tile n)

/-! ### Scalar instructions (R92 to R103) -/

/-- The register instructions of two sources with the value each writes (R93, R94). -/
def binaryForms : List ((BitVec 5 → BitVec 5 → BitVec 5 → Instr) × (Word → Word → Word)) :=
  [(.add, fun x y => word (x.toNat + y.toNat)),
   (.sub, fun x y => BitVec.ofInt 64 (x.toInt - y.toInt)),
   (.mul, fun x y => word (x.toNat * y.toNat)),
   (.mulh, fun x y => BitVec.ofInt 64 (x.toInt * y.toInt / 2 ^ 64)),
   (.div, fun x y => if y = 0 then BitVec.ofInt 64 (-1)
      else if x.toInt = -2 ^ 63 ∧ y.toInt = -1 then BitVec.ofInt 64 (-2 ^ 63) else BitVec.ofInt 64 (x.toInt.tdiv y.toInt)),
   (.rem, fun x y => if y = 0 then x
      else if x.toInt = -2 ^ 63 ∧ y.toInt = -1 then 0 else BitVec.ofInt 64 (x.toInt - y.toInt * x.toInt.tdiv y.toInt)),
   (.and, fun x y => x &&& y), (.or, fun x y => x ||| y), (.xor, fun x y => x ^^^ y), (.andn, fun x y => x &&& ~~~y),
   (.shl, fun x y => word (x.toNat * 2 ^ (y.toNat % 64))),
   (.shr, fun x y => word (x.toNat / 2 ^ (y.toNat % 64))),
   (.sar, fun x y => BitVec.ofInt 64 (x.toInt / 2 ^ (y.toNat % 64))),
   (.min, fun x y => if x.toInt ≤ y.toInt then x else y), (.max, fun x y => if x.toInt ≤ y.toInt then y else x),
   (.minu, fun x y => if x.toNat ≤ y.toNat then x else y), (.maxu, fun x y => if x.toNat ≤ y.toNat then y else x)]

/-- The extensions of the low 8, 16 and 32 bits (R93). -/
def extensionForms : List ((BitVec 5 → BitVec 5 → Instr) × (Word → Word)) :=
  [(.sext8, fun x => BitVec.ofInt 64 (x.setWidth 8).toInt), (.sext16, fun x => BitVec.ofInt 64 (x.setWidth 16).toInt),
   (.sext32, fun x => BitVec.ofInt 64 (x.setWidth 32).toInt), (.zext8, fun x => word (x.toNat % 2 ^ 8)),
   (.zext16, fun x => word (x.toNat % 2 ^ 16)), (.zext32, fun x => word (x.toNat % 2 ^ 32))]

/-- The compares with their conditions (R97). -/
def compareForms : List ((BitVec 5 → BitVec 5 → BitVec 5 → Instr) × (Word → Word → Bool)) :=
  [(.cmpEq, fun x y => decide (x = y)), (.cmpNe, fun x y => decide (x ≠ y)), (.cmpLt, fun x y => decide (x.toInt < y.toInt)),
   (.cmpGe, fun x y => decide (y.toInt ≤ x.toInt)), (.cmpLtu, fun x y => decide (x.toNat < y.toNat)),
   (.cmpGeu, fun x y => decide (y.toNat ≤ x.toNat))]

/-- The register instruction `i` completes: its value goes to d (a write of `s0` is discarded, R91), the thread goes
on at the next word, and nothing else changes. -/
def Writes (s : State) (t : Thread) (i : Instr) (d : BitVec 5) (v : Word) : Prop :=
  ∃ u, exec i s = .next u ∧ OnlyThread s u t (goesOn ((issuedBy s t).setReg d.toNat v) 4)

/-- The control transfer `i` completes: the thread, as `t'` beside its program counter, goes on at `pc`; nothing else
changes but the trace. -/
def GoesTo (s : State) (t : Thread) (i : Instr) (t' : Thread) (pc : Word) : Prop :=
  ∃ u, exec i s = .next u ∧ ThreadAndTrace s u t { t' with pc := pc, state := .ready, wait := none }

/-- The address that lies `o` words from the instruction of a thread (R28). -/
def wordsFrom (t : Thread) (o : Int) : Word := t.pc + BitVec.ofInt 64 (4 * o)

/-! ### Memory (R120 to R139) -/

/-- As `ThreadAndTrace`, and the access may have filled a TLB slice (R143), reserved a descriptor array (R61) and drawn free
path charges (R151). -/
def AccessOnly (s u : State) (t t' : Thread) : Prop :=
  u = { s with threads := tabSet s.threads t'.num t', tiles := u.tiles, tlb := u.tlb, arrays := u.arrays, meters := u.meters, accounts := u.accounts,
               fresh := u.fresh, pubBy := some (t.part, t.inst, t.ordinal) } ∧
  ∀ n, TraceOnly (s.tile n) (u.tile n)

/-- A thread without what its wait has seen. -/
def unseen (t : Thread) : Thread := { t with wait := t.wait.map fun w => { w with sat := false } }

/-- What a publishing instruction of `t` may change: memory and the publication order, its own thread, what waiting
threads have seen (R137), the trace, the TLB, the descriptor arrays (R61), the blocks that it makes good again (R149), the
energy accounts, and the order log of its partition (R401). -/
def PublishOnly (s u : State) (t : Thread) : Prop :=
  u = { s with threads := u.threads, tiles := u.tiles, mem := u.mem, hist := u.hist, pubCount := u.pubCount, parts := u.parts, tlb := u.tlb,
               arrays := u.arrays, badBlocks := u.badBlocks, meters := u.meters, accounts := u.accounts, fresh := u.fresh, pubBy := some (t.part, t.inst, t.ordinal) } ∧
  (∀ n, TraceOnly (s.tile n) (u.tile n)) ∧
  (∀ n, n ≠ t.num → (u.thread? n).map unseen = (s.thread? n).map unseen) ∧
  ∀ p, u.part p = { s.part p with log := (u.part p).log }

/-- The effective address `sa` + `o` × `z` (R126). -/
def addressOf (t : Thread) (a : BitVec 5) (o : Int) (z : Nat) : Word := BitVec.ofInt 64 ((t.reg a.toNat).toNat + o * z)

/-- The access passes Check (R127) at this physical address. -/
abbrev Passes (s : State) (t : Thread) (sp : Nat) (acc : Access) (ea : Word) (z pa : Nat) : Prop :=
  ((issuedIn s t).check (issuedBy s t) sp acc ea z).2 = .ok pa

/-- The bytes that a load by the thread returns (R120). -/
def loaded (s : State) (t : Thread) (pa z : Nat) : List Byte := (List.range z).map fun k => s.loadByte (issuedBy s t) (pa + k)

/-- The load forms: size and signedness (R126). -/
def loadForms : List ((BitVec 5 → BitVec 5 → BitVec 2 → BitVec 11 → Instr) × Nat × Bool) :=
  [(.ld8, 1, false), (.ld16, 2, false), (.ld32, 4, false), (.ld64, 8, false), (.ld8s, 1, true), (.ld16s, 2, true), (.ld32s, 4, true)]

/-- The store forms with their sizes (R126). -/
def storeForms : List ((BitVec 5 → BitVec 5 → BitVec 2 → BitVec 11 → Instr) × Nat) :=
  [(.st8, 1), (.st16, 2), (.st32, 4), (.st64, 8)]

/-- The buffered bytes of a store at an address, the newest first, with the account that made it (R122, R151). -/
def stored (pa va : Nat) (isG : Bool) (acct : Nat) (bs : List Byte) : List BufByte :=
  (List.range bs.length).reverse.map fun k => { pa := pa + k, va, isG, byte := bs.getD k 0, acct }

/-- The account that the thread's work carries (R22, R353). -/
def accountOf (t : Thread) : Nat := if t.level = 2 then 64 else t.acct

/-- The read-modify-write atomics: the new value of a location of `w` bits (R130). -/
def atomicForms : List ((BitVec 5 → BitVec 5 → BitVec 5 → BitVec 2 → BitVec 2 → BitVec 2 → Instr) × (Nat → Nat → Nat → Nat)) :=
  let le (w x y : Nat) : Bool := decide ((BitVec.ofNat w x).toInt ≤ (BitVec.ofNat w y).toInt)
  [(.atAdd, fun w x y => (x + y) % 2 ^ w), (.atAnd, fun _ x y => x &&& y), (.atOr, fun _ x y => x ||| y), (.atXor, fun _ x y => x ^^^ y),
   (.atMin, fun w x y => if le w x y then x else y), (.atMax, fun w x y => if le w x y then y else x),
   (.atMinu, fun _ x y => min x y), (.atMaxu, fun _ x y => max x y), (.atSwap, fun _ _ y => y)]

/-- The bytes of an atomic's or a wait's size code (R33, R34). -/
def sizeOf_ (z : BitVec 2) : Nat := if z = 0 then 4 else 8

/-! ### Traps, threads and system instructions (R105 to R112, R355 to R362, R380 to R391) -/

/-- A thread that a trap enters at level S (R357). -/
def enteredAtS (t : Thread) (vec : Word) (cause : Nat) (value tpc : Word) (tseq : Half) (rpc : Word) : Thread :=
  { t with
    tsw := t.sw, cause := word cause, tval := value, tpc := tpc, tseq := tseq, rpc := rpc
    sw := word (1 + 4 + 8 * t.prio + 32 * t.acct), pc := vec, state := .ready, wait := none, held := none, copying := none }

/-- The thread of a tile waits at a `bar` (R110). -/
abbrev AtBar (tile : Nat) (v : Thread) : Prop :=
  v.num / 4 = tile ∧ v.state = .waiting ∧ (match v.wait with | some w => (match w.instr with | .bar _ => true | _ => false) | none => false) = true

/-- The region state of a tile that a thread reads (R181, R182): its resident page's flags and rounding mode, else what the last
page left there (log 42). -/
def regionState (s : State) (tile : Nat) : BitVec 5 × Nat :=
  match s.pages.find? fun e => decide (e.2.region = some tile) with
  | some e => (e.2.st.flags, e.2.st.rnd)
  | none => ((s.tile tile).rgFlags, (s.tile tile).rgRnd)

/-- The `DB_` registers as a thread on the tile reads them, but for `DB_TRCDATA` (R387 to R392). -/
def debugForms : List (Nat × (Tile → Word)) :=
  [(0x0E0, fun b => b.trcCtl), (0x0E2, fun b => b.trcSel), (0x0F0, fun b => b.sampleCfg),
   (0x0E1, fun b => word (b.trcWptr % 2 ^ 11 + (if b.trcFrozen then 2 ^ 11 else 0) + b.trcCause % 2 ^ 3 * 2 ^ 12 + (if b.trcDovf then 2 ^ 15 else 0) +
      b.trcDrop % 2 ^ 16 * 2 ^ 16))] ++
  (List.range 4).flatMap fun k =>
    [(0x0E4 + k, fun (b : Tile) => b.trig.toArray.getD k 0), (0x0E8 + k, fun b => b.brk.toArray.getD k 0),
     (0x0EC + k, fun b => b.brkSeq.toArray.getD k 0)]

/-- What a thread reads from its own registers (R356, R138, R366, R381) and from those of its tile, its partition and the device that the
order log does not hold: number, least level and value. -/
def csrForms : List (Nat × Nat × (State → Thread → Word)) :=
  [(0x020, 0, fun _ t => t.sw), (0x021, 1, fun _ t => t.tsw), (0x022, 1, fun _ t => t.tpc), (0x023, 1, fun _ t => word t.tseq.toNat),
   (0x024, 1, fun _ t => t.cause), (0x025, 1, fun _ t => t.tval), (0x026, 1, fun _ t => t.rpc), (0x028, 0, fun _ t => t.spill),
   (0x02B, 0, fun _ t => word (t.num % 1024 + t.ordinal % 65536 * 1024)), (0x050, 0, fun _ t => t.mxTcfg), (0x060, 0, fun _ t => t.skTcfg),
   (0x051, 0, fun s t => word (s.tile (t.num / 4)).mxFlags.toNat), (0x010, 0, fun _ _ => word (6 + 6 * 16 + 6 * 256 + 5 * 4096 + 3 * 65536)),
   (0x027, 1, fun s t => (s.part t.part).vec), (0x029, 1, fun s t => (s.part t.part).root), (0x02C, 1, fun s t => (s.part t.part).recRing),
   (0x091, 1, fun s t => word (s.part t.part).pdl), (0x0C6, 1, fun s t => (s.part t.part).ckLast),
   (0x040, 0, fun s t => word (regionState s (t.num / 4)).1.toNat), (0x041, 0, fun s t => word (regionState s (t.num / 4)).2),
   (0x061, 0, fun s t => let f := (s.tile (t.num / 4)).skFlags.toArray
      word ((f.getD 0 0).toNat + (f.getD 1 0).toNat * 2 ^ 8 + (f.getD 2 0).toNat * 2 ^ 16 + (f.getD 3 0).toNat * 2 ^ 24))] ++
  ((List.range 5).map fun k => (0x042 + k, 0, fun s t => (s.tile (t.num / 4)).rgAcc.toArray.getD k 0)) ++
  ((List.range 9).map fun k => (0x0B0 + k, 1, fun s _ => s.dev.hash.toArray.getD k 0)) ++
  debugForms.map fun f => (f.1, 1, fun s t => f.2 (s.tile (t.num / 4)))

/-- What a write of a register of the thread's tile at level S stores (R283, R288, R387 to R392, R396). -/
def tileStores : List (Nat × (Tile → Word → Tile)) :=
  [(0x051, fun b v => { b with mxFlags := v.setWidth 5 }),
   (0x061, fun b v => { b with skFlags := Vector.ofFn fun g : Fin 4 => BitVec.ofNat 5 (v.toNat / 2 ^ (8 * g.val)) }),
   (0x0E0, fun b v => { b with trcCtl := word (v.toNat % 2 ^ 27) }), (0x0E2, fun b v => { b with trcSel := word (v.toNat % 2 ^ 13) }),
   (0x0F0, fun b v => { b with sampleCfg := word (v.toNat % 2 ^ 32) }),
   (0x0E1, fun b v =>
      let c : Tile := if v.getLsbD 11 then { b with trcFrozen := false, trcWptr := 0, trcDrop := 0 } else b
      if v.getLsbD 15 then { c with trcDovf := false } else c)] ++
  ((List.range 5).map fun k => (0x042 + k, fun b v =>
    let old := b.rgAcc.toArray.getD k 0
    { b with rgAcc := b.rgAcc.setIfInBounds k (word (v.toNat % 2 ^ 63 + if v.getLsbD 63 then 0 else old.toNat / 2 ^ 63 * 2 ^ 63)) })) ++
  (List.range 4).flatMap fun k =>
    [(0x0E4 + k, fun (b : Tile) (v : Word) => { b with trig := b.trig.setIfInBounds k (word (v.toNat % 2 ^ 3 + v.toNat / 2 ^ 8 * 2 ^ 8)) }),
     (0x0E8 + k, fun b v => { b with brk := b.brk.setIfInBounds k (word (v.toNat % 2 ^ 6 + v.toNat / 2 ^ 8 * 2 ^ 8)) }),
     (0x0EC + k, fun b v => { b with brkSeq := b.brkSeq.setIfInBounds k (word (v.toNat % 2 ^ 32)) })]

/-- What a write of a thread's own register stores (R356, R138). -/
def csrStores : List (Nat × (Thread → Word → Thread)) :=
  [(0x021, fun t v => { t with tsw := v }), (0x022, fun t v => { t with tpc := v }), (0x023, fun t v => { t with tseq := v.setWidth 32 }),
   (0x024, fun t v => { t with cause := word (v.toNat % 256) }), (0x025, fun t v => { t with tval := v }), (0x026, fun t v => { t with rpc := v }),
   (0x028, fun t v => { t with spill := v &&& 0x003FFFFFFFE3FFF8 })]

/-! ### Rings (R186 to R196) -/

/-- Where a tile's A-store lies in physical memory (R116). -/
def aStore (tile : Nat) : Nat := 2 ^ 51 + 2 ^ 21 * tile

/-- Avail of a bound handle on a tile as the counters stand (R190). -/
def availNow (s : State) (tile : Nat) (h : Handle) : Int :=
  let cb := aStore tile + h.lrcb
  let remote := (List.range h.nrep).foldl (fun m k => min m (s.readNat (cb + 0x10 + 8 * k) 8)) (s.readNat cb 8)
  if h.role = 0 then (s.readNat cb 8 : Int) - h.l.toNat - h.p else (h.depth : Int) - (h.l.toNat + h.p - (remote : Int))

/-- The counters of a control block, LOCAL as it stands in memory, keep R188: the producer's is at most DEPTH ahead of the
consumer's, and not behind it. -/
abbrev CountersKept (s : State) (tile : Nat) (h : Handle) : Prop :=
  let own := s.readNat (aStore tile + h.lrcb + 8) 8
  let other := s.remote tile h
  if h.role = 0 then own ≤ other ∧ other ≤ own + h.depth else other ≤ own ∧ own ≤ other + h.depth

/-- No bit of an end's control block, one line of its tile's A-store, is in error (R149, R188). -/
abbrev BlockReads (s : State) (tile : Nat) (h : Handle) : Prop := s.bad (aStore tile + h.lrcb) 64 = false

/-- The words of a descriptor at an end on a tile keep R189: every field in its range, every reserved bit zero, the geometry in
the A-store and apart from the control block, and every named tile presented. -/
def KeepsR189 (s : State) (tile : Nat) (w0 w1 w2 w3 : Nat) : Prop :=
  let base := w0 % 2 ^ 20
  let lrcb := w0 / 2 ^ 20 % 2 ^ 20
  let prcb := w0 / 2 ^ 40 % 2 ^ 20
  let prod := w0 / 2 ^ 60 % 2 = 1
  let slot64 := w1 % 2 ^ 10
  let depth := w1 / 2 ^ 10 % 2 ^ 12
  let peer := w1 / 2 ^ 22 % 2 ^ 8
  let kind := w1 / 2 ^ 30 % 2 ^ 2
  let nrep := w1 / 2 ^ 32 % 2 ^ 3
  let repix := w1 / 2 ^ 35 % 2 ^ 3
  let rep (k : Nat) : Nat := w2 / 2 ^ (8 * k) % 2 ^ 8
  let presented (n : Nat) : Prop := n < 192 ∧ (s.tile n).present = true
  (base % 64 = 0 ∧ lrcb % 64 = 0 ∧ prcb % 64 = 0 ∧ (kind ≠ 0 → prcb = 0)) ∧
  (w0 / 2 ^ 61 = 0 ∧ w1 / 2 ^ 38 = 0 ∧ w2 / 2 ^ 48 = 0 ∧ w3 / 2 ^ 56 = 0) ∧
  (2 ≤ slot64 ∧ 1 ≤ depth ∧ kind ≠ 3 ∧ (kind = 0 → presented peer) ∧ (kind = 1 → peer < 16) ∧ (kind = 2 → peer < 12)) ∧
  ((if prod ∧ kind = 0 then nrep ≤ 6 else nrep = 0) ∧ (if prod then repix = 0 else repix ≤ 6)) ∧
  (∀ k, k < 6 → if k < nrep then presented (rep k) else rep k = 0) ∧
  (if prod ∧ kind = 0 ∧ nrep = 0 then w3 % 2 ^ 20 = 0 else w3 = 0) ∧
  base + depth * (64 * slot64) ≤ 0x100000 ∧
  ((prod ∧ kind = 0 → peer = tile) → lrcb + 64 ≤ base ∨ base + depth * (64 * slot64) ≤ lrcb)

/-- Handle `h` of the thread may not be bound again (R192): it is bound, and it has taken slots, a resident port is bound to it,
or an engine command that names it is in flight. -/
def HandleHeld (s : State) (t : Thread) (h : Nat) : Prop :=
  (t.handle h).bound = true ∧
    ((t.handle h).p ≠ 0 ∨ (∃ p ∈ s.pagesOf t, p.region.isSome = true ∧ ∃ e, e < pgPorts p.image ∧ portHandle p.image e = h) ∨
      (∃ c ∈ (s.tile (t.num / 4)).cmds, c.name.thread = t.num ∧ (c.op.handle? = some h ∨ ∃ n, (h, n) ∈ c.slots)) ∨
      ∃ u ∈ s.subs, (u.thread = some t.num ∧ u.handle = h ∧ u.left.isSome = true) ∨ ∃ k ∈ u.stoppers, k.1.thread = t.num ∧ k.2.2 = h)

/-- The handle is bound with this role, its control block can be read, and its counters keep R188. -/
abbrev Standing (s : State) (t : Thread) (h : BitVec 5) (role av : Nat) : Prop :=
  h.toNat ≤ 15 ∧ (t.handle h.toNat).bound = true ∧ (t.handle h.toNat).role = role ∧ availNow s (t.num / 4) (t.handle h.toNat) = av ∧
    av ≤ (t.handle h.toNat).depth ∧ CountersKept s (t.num / 4) (t.handle h.toNat) ∧ BlockReads s (t.num / 4) (t.handle h.toNat)

/-- What applying slots at an end reaches is its partition's: the peers' tiles, an arc's link (R370). -/
abbrev ReachesOwn (s : State) (tile : Nat) (h : Handle) : Prop :=
  let owner := (s.tile tile).owner
  (h.peerKind = 0 → (s.tile h.peer).owner = owner ∧ ∀ k, k < h.nrep → (s.tile (h.repTile (k + 1))).owner = owner) ∧
    (h.peerKind = 2 → ∃ p, owner = some p ∧ (s.part p).links.testBit h.peer = true)

/-- No cut is in progress in the thread's instance. -/
abbrev NoCut (s : State) (t : Thread) : Prop := ∀ i, s.inst? t.part t.inst = some i → i.cut = none

/-- The counter writes of an end that applies `n` slots: its LOCAL and every peer's REMOTE (R190, R194). -/
def counterCells (tile n : Nat) (h : Handle) : List (Nat × Byte) :=
  let v := leBytes 8 ((h.l.toNat + n) % 2 ^ 64)
  cellsAt (aStore tile + h.lrcb + 8) v ++
    (if h.peerKind ≠ 0 then []
     else if h.role = 0 then cellsAt (aStore h.peer + h.prcb + (if h.repix = 0 then 0 else 0x10 + 8 * (h.repix - 1))) v
     else cellsAt (aStore h.peer + h.prcb) v ++ ((List.range h.nrep).flatMap fun k => cellsAt (aStore (h.repTile (k + 1)) + h.prcb) v))

/-- The state of a ring instruction after its charges. -/
def ringIn (s : State) (t : Thread) : State := (issuedIn s t).chargeThread (issuedBy s t) 0x20 1

/-- The ring instruction raises a trap whose value the spec does not state (log 7): nothing but the charges and the counter of
free values is changed before. -/
def RingTraps (s : State) (t : Thread) (i : Instr) (cause : Nat) : Prop :=
  exec i s = .next ({ ringIn s t with fresh := (ringIn s t).fresh + 1 }.takeTrap (issuedBy s t) cause (Config.freeWord (ringIn s t).fresh)
    t.pc t.seq t.pc)

/-! ### Engine commands (R23, R246, R270) -/

/-- The command that thread `t` issues to an engine: its number, its two-level name (R24), what it does, and the
configuration it captures (R272, R287). -/
def commandOf (s : State) (t : Thread) (unit : Unit_) (i : Instr) (op : CmdOp) (slots : List (Nat × Nat)) (first : List Nat) : Cmd :=
  { id := s.nextCmd
    name := { thread := t.num, part := t.part, inst := t.inst, ordinal := t.ordinal, actor := t.actor
              acct := accountOf t, pc := t.pc, seq := t.seq + 1, operand := operandAddr i t }
    op := op, level := t.level, cfg := (match unit with | .mx => t.mxTcfg | _ => t.skTcfg), fence := t.fence
    slots := slots, inRegion := t.region.isSome, space0 := first }

/-- The engine command `i` issues: it enters its engine's queue behind every other, the thread goes on as `t'` with the
next sequence number, and nothing else changes but the trace. -/
def Enters (s : State) (t : Thread) (unit : Unit_) (i : Instr) (t' : Thread) (op : CmdOp) (slots : List (Nat × Nat)) (first : List Nat) : Prop :=
  let old := s.tile (t.num / 4)
  ∃ u, exec i s = .next u ∧
    u = { s with threads := tabSet s.threads t.num (goesOn { t' with seq := t.seq + 1 } (lengthBytes i)), tiles := u.tiles, meters := u.meters,
                 accounts := u.accounts, pubBy := some (t.part, t.inst, t.ordinal), nextCmd := s.nextCmd + 1 } ∧
    (∀ n, n ≠ t.num / 4 → TraceOnly (s.tile n) (u.tile n)) ∧
    TraceOnly (old.setQueue unit (old.queue unit ++ [commandOf s t unit i op slots first])) (u.tile (t.num / 4))

/-- The engine command raises a trap whose value the spec does not state (log 7), named with the sequence number it would have. -/
def CommandTraps (s : State) (t : Thread) (i : Instr) (cause : Nat) : Prop :=
  exec i s = .next ({ issuedIn s t with fresh := (issuedIn s t).fresh + 1 }.takeTrap (issuedBy s t) cause (Config.freeWord (issuedIn s t).fresh)
    t.pc (t.seq + 1) t.pc)

/-- A command that completes at its issue: the thread goes on as `t'` with the next sequence number. -/
def CompletesAtIssue (s : State) (t : Thread) (i : Instr) (t' : Thread) : Prop :=
  ∃ u, exec i s = .next u ∧ ThreadAndTrace s u t (goesOn { t' with seq := t.seq + 1 } (lengthBytes i))

/-- The thread that takes `n` slots of a handle at an issue (R270 step 6): P rises, and an open region keeps the take. -/
def takes (s : State) (t : Thread) (h n : Nat) : Thread :=
  let hd := t.handle h
  { (issuedBy s t).setHandle h { hd with p := hd.p + n } with
    region := t.region.map fun r => { r with deferred := r.deferred ++ [.take h n], taken := r.taken.setIfInBounds h (r.taken.toArray.getD h 0 + n) } }

/-- A window of R271 with at least one row and column, in the thread's allocation (R272). -/
abbrev WindowFits (t : Thread) (v : Word) (rows cols : Nat) : Prop :=
  v.toNat < 2 ^ 34 ∧ 1 ≤ winRows v ∧ winRow v + winRows v ≤ rows ∧ 1 ≤ winCols v ∧ winCols v ≤ cols ∧ winCol v + winCols v ≤ 512 ∧
    mxBase t.mxTcfg ≤ winCol v ∧ winCol v + winCols v ≤ mxBase t.mxTcfg + mxCount t.mxTcfg

/-- The output columns of the thread's matrix mode (R262). -/
def outputColumns (t : Thread) : Nat := if mxMode t.mxTcfg = 2 then 256 else 512

/-- The formats that A operands have (R266). -/
abbrev acceptedFormat (f : Nat) : Prop := f ∈ [1, 2, 3, 4, 5, 8, 9, 10, 11, 12, 13]

/-- The described value of byte `k` of a block of an 8-bit format (R60, R73). -/
def describedByte (s : State) (pa k : Nat) : Ex :=
  (decodeFmt ((s.descAt pa).toNat % 256) (s.readByte (pa + k)).toNat).scale (BitVec.ofNat 8 ((s.descAt pa).toNat / 256)).toInt

/-- The block is described in an 8-bit format that the matrix unit accepts (R64, R266). -/
abbrev EightBit (s : State) (pa : Nat) : Prop := (s.descAt pa).toNat % 256 ∈ [8, 9, 10, 11]

/-- Trunc(x × 2^(−e)), toward zero; NaN and infinities count as zero (R264). -/
def truncated (x : Ex) (e : Int) : Int :=
  match x with
  | .fin neg m k => (if neg then -1 else 1) * (if e ≤ k then m * 2 ^ (k - e).toNat else m / 2 ^ (e - k).toNat : Nat)
  | _ => 0

/-- The cells and the exponent of a group (R264): every element truncated at the least exponent at which all fit `w` bits; zero
where no element is a number other than zero. -/
def Aligned (w : Nat) (xs : List Ex) (cells : List Int) (e : Int) : Prop :=
  let some_ : Prop := ∃ x ∈ xs, ∃ neg m k, x = .fin neg m k ∧ m ≠ 0
  let fits (e : Int) : Prop := ∀ x ∈ xs, -2 ^ (w - 1) ≤ truncated x e ∧ truncated x e ≤ 2 ^ (w - 1) - 1
  cells = xs.map (fun x => truncated x e) ∧ (¬some_ → e = 0) ∧ (some_ → fits e ∧ ∀ e' : Int, e' < e → ¬fits e')

/-- An accumulator after the terms of a chunk, integers times powers of two (R80). -/
def updated (old : Nat) (terms : List (Int × Int)) : Nat :=
  match decodeIeee 23 old with
  | .nan => 0x7FC00000
  | .inf _ => old
  | .fin neg m e =>
    let t := exactSum (((if neg then -(m : Int) else m), e) :: terms)
    if t.1 = 0 then 0 else (roundIeee 23 (.fin (decide (t.1 < 0)) t.1.natAbs t.2) 0).1

/-- The address of an accumulator of a tile (R117). -/
def accumulator (tile col row : Nat) : Nat := aStore tile + 0x180000 + (col * 128 + row) * 4

/-! ### Skink (R286 to R308) -/

/-- As `Enters`, for a command that reads its record from global memory at its issue (R303, R304, R314). -/
def EntersAfterRead (s : State) (t : Thread) (unit : Unit_) (i : Instr) (op : CmdOp) : Prop :=
  let old := s.tile (t.num / 4)
  ∃ u, exec i s = .next u ∧
    u = { s with threads := tabSet s.threads t.num (goesOn { issuedBy s t with seq := t.seq + 1 } (lengthBytes i)), tiles := u.tiles, tlb := u.tlb,
                 arrays := u.arrays, meters := u.meters, accounts := u.accounts, fresh := u.fresh, pubBy := some (t.part, t.inst, t.ordinal), nextCmd := s.nextCmd + 1 } ∧
    (∀ n, n ≠ t.num / 4 → TraceOnly (s.tile n) (u.tile n)) ∧
    TraceOnly (old.setQueue unit (old.queue unit ++ [commandOf s t unit i op [] []])) (u.tile (t.num / 4))

/-- A transfer of at least one word that stays in its bank (R303). -/
abbrev TransferFits (v : Word) : Prop := v.toNat < 2 ^ 17 ∧ 1 ≤ v.toNat / 256 ∧ v.toNat % 256 + v.toNat / 256 ≤ 256

/-- The pass format of a configuration as a code of R64: SPF32, F32, BF16 (R287). -/
def passFormat (cfg : Word) : Nat := if wbits cfg 33 2 = 0 then 16 else if wbits cfg 33 2 = 1 then 1 else 2

/-- A word of a bank; addresses are taken modulo 256 (R293). -/
def bankWord (s : State) (tile b w : Nat) : Nat := (sparseGet 0 (s.tile tile).banks (256 * b + w % 256)).toNat

/-- The scale SC of a bank (R289). -/
def bankScale (s : State) (tile b : Nat) : Int := (s.tile tile).scales.toArray.getD b 0

/-- Val, of a word in the pass format at a bank's scale (R294). -/
def wordValue (cfg : Word) (sc : Int) (v : Nat) : Ex :=
  (decodeFmt (passFormat cfg) (v % 2 ^ fmtBits (passFormat cfg))).scale (if passFormat cfg = 16 then sc else 0)

/-- The word that a value rounds to in the pass format at a bank's scale (R294, R81). -/
def wordOf (cfg : Word) (sc : Int) (x : Ex) : Nat :=
  (roundFmt (passFormat cfg) (if passFormat cfg = 16 then sc else 0) x (wbits cfg 35 3)).1

/-- Blocks of a stored transfer in a format of 16 or 32 elements a block (R304). -/
def transferBlocks (fmt cnt : Nat) : Nat := if fmt = 2 then (cnt + 31) / 32 else (cnt + 15) / 16

/-! ### Copies (R310 to R315) -/

/-- A completion operand that R311 accepts. -/
abbrev CompletionOk (v : Word) (credit : Bool) : Prop :=
  v.toNat / 2 ^ 21 % 2 ^ 11 = 0 ∧ (v.getLsbD 20 = true → v.toNat % 4 = 0 ∧ credit = false)

/-- A record of one whole block at an offset of the A-store (R216). -/
abbrev BlockAt (r : Tensor) (off : Nat) : Prop :=
  r.space = 1 ∧ r.base = off ∧ off % 64 = 0 ∧ off + 64 ≤ 2 ^ 20 ∧ r.fmt = 0 ∧ r.rowb = 64 ∧ r.e1 = 1 ∧ r.e2 = 1 ∧ r.e3 = 1

/-! ### Elements (R153 to R176) -/

/-- A token that is no marker is at the head of an operand queue. -/
abbrev HeadIs (p : Page) (slot q : Nat) (k : Token) : Prop := (p.queue slot q).toks.head? = some k ∧ k.m = false

/-- The operand tokens of an element (R158): A from `q0`; B from `q1`, `k0`, `k1` or `q2` by the selector; C from `q2`,
or from `k2` where B is `q2`. -/
abbrev Operands (p : Page) (slot : Nat) (sel : BitVec 2) (ops : List Token) : Prop :=
  (∀ x, ops[0]? = some x → HeadIs p slot 0 x) ∧
  (∀ y, ops[1]? = some y → if sel = 0 then HeadIs p slot 1 y else if sel = 3 then HeadIs p slot 2 y
    else y = { payload := elemConst p.image slot (sel.toNat - 1) }) ∧
  (∀ z, ops[2]? = some z → if sel = 3 then z = { payload := elemConst p.image slot 2 } else HeadIs p slot 2 z)

/-- The queues that an element of so many operands takes a token from (R157, R158). -/
def queuesRead (arity : Nat) (sel : BitVec 2) : List Nat :=
  [0] ++ (if arity < 2 then [] else if sel = 0 then [1] else if sel = 3 then [2] else []) ++ (if arity < 3 ∨ sel = 3 then [] else [2])

/-- The page with one token gone from each of these queues of a slot. -/
def consumed (p : Page) (slot : Nat) (qs : List Nat) : Page :=
  qs.foldl (fun p q => p.setQueue slot q { p.queue slot q with toks := (p.queue slot q).toks.tail }) p

/-- The element of the turn may fire (R157): its page is resident, it is not busy, and its word is well formed. -/
abbrev ElementReady (s : State) (p : Page) (i : Instr) (a b : BitVec 9) : Prop :=
  s.page? s.curPage = some p ∧ p.region.isSome = true ∧ p.busy s.curSlot [a.toNat, b.toNat] = false ∧ wellFormed i = true

/-- The page as something that fires in it leaves its phase (R395). -/
def moved (s : State) (p : Page) : Page :=
  { p with lastFire := s.dev.elapsed, phase := { p.phase with
      moved := true, fires := p.phase.fires + 1, ready := p.phase.ready + if s.tokenReady p then 1 else 0 } }

/-- The page as a write through a port or a generator leaves its phase: with the first one what fired while it filled does not
count on (R395). -/
def left (p : Page) : Page :=
  { p with phase := { p.phase with
      moved := true, left := true, fires := (if p.phase.left then p.phase.fires else 0) + 1, ready := if p.phase.left then p.phase.ready else 0 } }

/-- With room for what it emits, the element fires: the operands leave their queues, its register becomes `reg`, the
flags stick, and the tokens leave for their consumers; beside its page only the energy account changes. -/
def ElementFires (s : State) (p : Page) (i : Instr) (a b : BitVec 9) (qs : List Nat) (toA toB : List Token) (flags : Flags) (reg : ElemReg) : Prop :=
  let more := reg.second.toList
  ElementReady s p i a b →
  s.roomFor p s.curSlot [(a.toNat, toA.length + more.length, toA ++ more), (b.toNat, toB.length + more.length, toB ++ more)] = some true →
  let p1 := (consumed p s.curSlot qs).setElem s.curSlot reg
  let p2 : Page := { moved s p1 with st := { p1.st with flags := p.st.flags ||| flags.toBits } }
  ∃ u, exec i s = .next u ∧
    u = { s with pages := tabSet s.pages p.id ((p2.sendAll s.curSlot s.curSlot a.toNat toA).sendAll s.curSlot s.curSlot b.toNat toB)
                 meters := u.meters, accounts := u.accounts }

/-- The highest end rank of the operands (R153). -/
def topRank (ops : List Token) : Nat := ops.foldl (fun m k => max m k.e) 0

/-- A result with the sideband of R153: the highest E of the operands, the T of A. -/
def resultOf (ops : List Token) (v : Half) : Token := { payload := v, e := topRank ops, t := (ops.head?.getD {}).t }

/-- What a null operand makes an element emit (R159): a null token, which an absorbing element emits only for an end rank. -/
def nullOut (n : BitVec 1) (ops : List Token) : List Token :=
  if n = 0 ∨ topRank ops ≠ 0 then [{ resultOf ops 0 with n := true }] else []

/-- A's token with its sideband under R153, null where A is null. -/
def carried (ops : List Token) (x : Token) : Token := { resultOf ops (if x.n then 0 else x.payload) with n := x.n }

/-- The rounding mode of a variant; 5 is the page's (R69). -/
def pageMode (p : Page) (v : BitVec 3) : Nat := if v = 5 then p.st.rnd else v.toNat

/-- Saturate of width 32 (R75): 0 wraps, 1 clamps signed, 2 clamps unsigned. -/
def clamped (v : BitVec 3) (n : Int) : Nat × Flags :=
  let lo : Int := if v = 1 then -2 ^ 31 else 0
  let hi : Int := if v = 1 then 2 ^ 31 - 1 else 2 ^ 32 - 1
  ((if v = 0 then n % 2 ^ 32 else max lo (min hi n) % 2 ^ 32).toNat, { of := decide (v ≠ 0 ∧ (n < lo ∨ hi < n)) })

/-- The magnitude of a code of F32 (`mb` = 23) or BF16 (7) below the infinity's, as an integer and a power of two (R65). -/
def magnitude (mb k : Nat) : Nat × Int :=
  if k / 2 ^ mb = 0 then (k, -126 - mb) else (k % 2 ^ mb + 2 ^ mb, (k / 2 ^ mb : Nat) - 127 - mb)

/-- The compute operations: how many operands each reads, and its result with its flags for a rounding mode, a variant and
the operands' payloads (R161 to R170). -/
def elementForms : List ((BitVec 9 → BitVec 9 → BitVec 2 → BitVec 1 → BitVec 3 → Instr) × Nat × (Nat → BitVec 3 → Half → Half → Half → Nat × Flags)) :=
  let rd (v : BitVec 3) (x : Half) : Int := if v = 2 then (x.toNat : Int) else x.toInt
  let lo (x : Half) : Nat := x.toNat % 65536
  let hi (x : Half) : Nat := x.toNat / 65536
  let both (l h : Nat × Flags) : Nat × Flags := (l.1 + h.1 * 65536, l.2.or h.2)
  let ex (x : Half) : Ex := decodeIeee 23 x.toNat
  [(.iadd, 2, fun _ v x y _ => clamped v (rd v x + rd v y)), (.isub, 2, fun _ v x y _ => clamped v (rd v x - rd v y)),
   (.imul, 2, fun _ v x y _ => clamped v (rd v x * rd v y)),
   (fun a b q n _ => .imulh a b q n, 2, fun _ _ x y _ => ((x.toInt * y.toInt / 2 ^ 32 % 2 ^ 32).toNat, {})),
   (fun a b q n _ => .iand a b q n, 2, fun _ _ x y _ => ((x &&& y).toNat, {})), (fun a b q n _ => .ior a b q n, 2, fun _ _ x y _ => ((x ||| y).toNat, {})),
   (fun a b q n _ => .ixor a b q n, 2, fun _ _ x y _ => ((x ^^^ y).toNat, {})),
   (fun a b q n _ => .ishl a b q n, 2, fun _ _ x y _ => (x.toNat * 2 ^ (y.toNat % 32) % 2 ^ 32, {})),
   (fun a b q n _ => .ishr a b q n, 2, fun _ _ x y _ => (x.toNat / 2 ^ (y.toNat % 32), {})),
   (fun a b q n _ => .isar a b q n, 2, fun _ _ x y _ => ((x.toInt / 2 ^ (y.toNat % 32) % 2 ^ 32).toNat, {})),
   (fun a b q n _ => .imin a b q n, 2, fun _ _ x y _ => (if x.toInt ≤ y.toInt then x.toNat else y.toNat, {})),
   (fun a b q n _ => .imax a b q n, 2, fun _ _ x y _ => (if x.toInt ≤ y.toInt then y.toNat else x.toNat, {})),
   (fun a b q n _ => .iminu a b q n, 2, fun _ _ x y _ => (min x.toNat y.toNat, {})),
   (fun a b q n _ => .imaxu a b q n, 2, fun _ _ x y _ => (max x.toNat y.toNat, {})),
   (.iabs, 1, fun _ v x _ _ => clamped v x.toInt.natAbs),
   (.icmp, 2, fun _ v x y _ => (if (match v.toNat with
      | 0 => decide (x = y) | 1 => decide (x ≠ y) | 2 => decide (x.toInt < y.toInt) | 3 => decide (y.toInt ≤ x.toInt)
      | 4 => decide (x.toNat < y.toNat) | _ => decide (y.toNat ≤ x.toNat)) then 1 else 0, {})),
   (.fadd, 2, fun m _ x y _ => fpAdd 23 x.toNat y.toNat m), (.fsub, 2, fun m _ x y _ => fpSub 23 x.toNat y.toNat m),
   (.fmul, 2, fun m _ x y _ => fpMul 23 x.toNat y.toNat m), (.ffma, 3, fun m _ x y z => fpFma 23 x.toNat y.toNat z.toNat m),
   (fun a b q n _ => .fmin a b q n, 2, fun _ _ x y _ => (fpMinMax 23 false x.toNat y.toNat, {})),
   (fun a b q n _ => .fmax a b q n, 2, fun _ _ x y _ => (fpMinMax 23 true x.toNat y.toNat, {})),
   (fun a b q n _ => .fabs a b q n, 1, fun _ _ x _ _ => (if (ex x).isNan then 0x7FC00000 else x.toNat % 2 ^ 31, {})),
   (fun a b q n _ => .fneg a b q n, 1, fun _ _ x _ _ => (if (ex x).isNan then 0x7FC00000 else (x ^^^ 0x80000000).toNat, {})),
   (.fcmp, 2, fun _ v x y _ => (if fpCond v.toNat x.toNat y.toNat then 1 else 0, {})), (.rndi, 1, fun m _ x _ _ => (fpRndi x.toNat m, {})),
   (fun a b q n _ => .fxp a b q n, 1, fun _ _ x _ _ => fpExp2 x.toNat),
   (fun a b q n _ => .expins a b q n, 2, fun _ _ x y _ => fpExpIns x.toNat y.toNat), (fun a b q n _ => .expext a b q n, 1, fun _ _ x _ _ => fpExpExt x.toNat),
   (fun a b q n _ => .frcp a b q n, 1, fun _ _ x _ _ => fpRcp x.toNat), (fun a b q n _ => .frsq a b q n, 1, fun _ _ x _ _ => fpRsq x.toNat),
   (.badd2, 2, fun m _ x y _ => both (fpAdd 7 (lo x) (lo y) m) (fpAdd 7 (hi x) (hi y) m)),
   (.bsub2, 2, fun m _ x y _ => both (fpSub 7 (lo x) (lo y) m) (fpSub 7 (hi x) (hi y) m)),
   (.bmul2, 2, fun m _ x y _ => both (fpMul 7 (lo x) (lo y) m) (fpMul 7 (hi x) (hi y) m)),
   (.bfma2, 3, fun m _ x y z => both (fpFma 7 (lo x) (lo y) (lo z) m) (fpFma 7 (hi x) (hi y) (hi z) m)),
   (fun a b q n _ => .bmin2 a b q n, 2, fun _ _ x y _ => (fpMinMax 7 false (lo x) (lo y) + fpMinMax 7 false (hi x) (hi y) * 65536, {})),
   (fun a b q n _ => .bmax2 a b q n, 2, fun _ _ x y _ => (fpMinMax 7 true (lo x) (lo y) + fpMinMax 7 true (hi x) (hi y) * 65536, {})),
   (.i2f, 1, fun m _ x _ _ => roundIeee 23 (exInt x.toInt) m), (.f2i, 1, fun m _ x _ _ => roundToInt 32 1 (ex x) m),
   (.f2b, 2, fun m _ x y _ => both (roundIeee 7 (ex x) m) (roundIeee 7 (ex y) m)),
   (fun a b q n _ => .b2f a b q n, 1, fun _ _ x _ _ => (if (decodeIeee 7 (lo x)).isNan then 0x7FC00000 else lo x * 65536, {})),
   (fun a b q n _ => .b2fh a b q n, 1, fun _ _ x _ _ => (if (decodeIeee 7 (hi x)).isNan then 0x7FC00000 else hi x * 65536, {})),
   (fun a b q n _ => .esel a b q n, 3, fun _ _ x y z => (if x ≠ 0 then y.toNat else z.toNat, {}))]

/-! ### Ports and address generators (R200 to R213) -/

/-- The page of the turn is resident with a firing of thread `t` open, and is not monitored (R200, R429). -/
abbrev FiringOpen (s : State) (p : Page) (t : Thread) : Prop :=
  p.region.isSome = true ∧ s.pageThread p = some t ∧ s.thread? t.num = some t ∧ (∃ r, t.region = some r ∧ r.isTask = false) ∧
    pgMon p.image = false ∧ p.st.aligning = false

/-- The last value that some cells give an address. -/
def lastOf (cells : List (Nat × Byte)) (a : Nat) (d : Byte) : Byte := ((cells.reverse.find? fun c => decide (c.1 = a)).map Prod.snd).getD d

/-- Bytes at an offset of a slot, in every tile that holds it (R202, R203). -/
def slotCells (h : Handle) (tile v off : Nat) (bs : List Byte) : List (Nat × Byte) := (h.slotPas tile v off).flatMap fun pa => cellsAt pa bs

/-- A trailer line (R187). -/
def trailerLine (count e t : Nat) (n m : Bool) : List Byte :=
  leBytes 4 (count + e * 2 ^ 13 + t * 2 ^ 15 + (if n then 2 ^ 20 else 0) + (if m then 2 ^ 21 else 0)) ++ zeros 60

/-- The page is resident with a firing of thread `t` open, or runs a marker firing (R200, R251). -/
abbrev PortActs (s : State) (p : Page) (t : Thread) : Prop :=
  p.region.isSome = true ∧ s.pageThread p = some t ∧ s.thread? t.num = some t ∧
    (p.st.aligning = true ∨ ∃ r, t.region = some r ∧ r.isTask = false)

/-- A token fits the open slot of port `e`: its N and T are the slot's (R202). -/
def fitsOpen (p : Page) (e : Nat) (k : Token) : Bool := (p.port e).isOpen && decide (k.n = (p.port e).last.n ∧ k.t = (p.port e).last.t)

/-- A slot at Head is available to port `e`, once the slot that it has open is closed (R190, R202). -/
abbrev HasSlot (s : State) (p : Page) (t : Thread) (e : Nat) : Prop :=
  portHandle p.image e < 16 ∧
    ∃ av, 0 < av ∧ (if (p.port e).isOpen then (s.closeSlot p t e 0).1 else s).availTo? t.tile (t.handle (portHandle p.image e)) = some av

/-- Port `e` accepts a data token: the token passes the tag check (R204), and it fits the open slot or may open one (R202, R238). -/
abbrev Accepts (s : State) (p : Page) (t : Thread) (e : Nat) (k : Token) : Prop :=
  k.m = false ∧ (portTchk p.image e = true → k.n = false → k.t = portTag p.image e) ∧
    (fitsOpen p e k = false → s.takeOk t (portHandle p.image e) 1 = true ∧ HasSlot s p t e)

/-- Over memory in canonical form, `i` leaves page `q` with port `e` as `pt`, the thread as `t`, these bytes written in their order, and
every other byte of memory as it was. -/
def PortLeaves (s : State) (i : Instr) (q : Page) (t : Thread) (e : Nat) (pt : Port) (cells : List (Nat × Byte)) : Prop :=
  s.mem.wf = true →
  ∃ u, exec i s = .next u ∧ u.page? q.id = some (left (q.setPort e pt)) ∧ (u.thread? t.num).map unseen = some (unseen t) ∧
    ∀ a, u.readByte a = lastOf cells a (s.readByte a)

/-- `i` leads page `q` to accept a data token at port `e` (R202): a slot that the token does not fit closes with its trailer; without
an open one the slot at Head opens, and P rises; the token's word is written at the cursor; an end rank, or the last word, closes
the slot. -/
def PortWrites (s : State) (i : Instr) (q : Page) (t : Thread) (e : Nat) (k : Token) : Prop :=
  let hn := portHandle q.image e
  let h := t.handle hn
  let pt := q.port e
  let fits := fitsOpen q e k
  let v := if fits then pt.slot else h.l.toNat + h.p
  let c := if fits then pt.cursor else 0
  let shuts := decide (k.e ≠ 0 ∨ c + 1 = portTps q.image e)
  let old := pt.isOpen && !fits
  let trailer (v n r : Nat) (x : Token) : List (Nat × Byte) := slotCells h t.tile v (h.slotB - 64) (trailerLine n r x.t x.n false)
  PortLeaves s i q (if fits then t else t.takeFor hn true) e
    { pt with isOpen := !shuts, slot := v, cursor := if shuts then 0 else c + 1, last := k, count := pt.count + 1
              finished := pt.finished + (if old then 1 else 0) + (if shuts then 1 else 0) }
    ((if old then trailer pt.slot pt.cursor 0 pt.last else []) ++ slotCells h t.tile v (4 * c) (leBytes 4 (if k.n then 0 else k.payload.toNat)) ++
      (if shuts then trailer v (c + 1) k.e k else []))

/-- `i` leads page `q` to accept a marker at port `e` (R202): an open slot closes with its trailer, and the slot at Head, taken without
being counted, gets the payload and a trailer with M, and closes. -/
def PortMarks (s : State) (i : Instr) (q : Page) (t : Thread) (e : Nat) (k : Token) : Prop :=
  let hn := portHandle q.image e
  let h := t.handle hn
  let pt := q.port e
  let v := h.l.toNat + h.p
  PortLeaves s i q (t.takeFor hn false) e
    { pt with isOpen := false, cursor := if pt.isOpen then 0 else pt.cursor, finished := pt.finished + (if pt.isOpen then 2 else 1)
              finishedMark := pt.finishedMark + 1 }
    ((if pt.isOpen then slotCells h t.tile pt.slot (h.slotB - 64) (trailerLine pt.cursor 0 pt.last.t pt.last.n false) else []) ++
      slotCells h t.tile v 0 (leBytes 4 k.payload.toNat) ++ slotCells h t.tile v (h.slotB - 64) (trailerLine 0 0 0 false true))

/-- An address generator may take a turn (R210 to R212). -/
abbrev GeneratorReady (s : State) (p : Page) (i : Instr) : Prop :=
  s.page? s.curPage = some p ∧ p.region.isSome = true ∧ (s.firingThread p).isSome = true ∧ wellFormed i = true ∧
    ∀ f ∈ p.st.held, f.producer ≠ s.curSlot

/-- The generator `i` moves its page to `q`, which fired now, and changes nothing else. -/
def GeneratorMoves (s : State) (i : Instr) (q : Page) : Prop :=
  exec i s = .next { s with pages := tabSet s.pages q.id (moved s q) }

/-- A run that a start token begins (R208). -/
def runOf (k : Token) : Ag := { busy := true, off := if k.n then 0 else k.payload.toInt, null := k.n }

/-- The generator after its access of iteration `n` (R208): the next iteration's indices, or the end of the run. -/
def afterAccess (im : List Byte) (d n : Nat) (g : Ag) : Ag :=
  if n + 1 < agTotal im d then { g with i0 := agIndex im d (n + 1) 0, i1 := agIndex im d (n + 1) 1, i2 := agIndex im d (n + 1) 2, i3 := agIndex im d (n + 1) 3 }
  else { g with pos := 1 }

/-- The tokens of the bytes of an access, the last with the iteration's end rank (R208, R209). -/
def accessTokens (im : List Byte) (d n : Nat) (bs : List Byte) : List Token :=
  let count := if agSize im d ≤ 2 then 1 else 2 ^ agSize im d / 4
  (List.range count).map fun k =>
    { payload := BitVec.ofNat 32 (leNat ((bs.drop (4 * k)).take 4)), e := if k + 1 = count then agRank im d n else 0 }

/-- The buffered bytes of the stores of an access of so many tokens at an address, the newest first: one store for each
token (R211, R122). -/
def accessStored (pa va : Nat) (isG : Bool) (acct : Nat) (bs : List Byte) (count : Nat) : List BufByte :=
  (List.range count).reverse.flatMap fun k => stored (pa + 4 * k) (va + 4 * k) isG acct ((bs.drop (4 * k)).take 4)

/-! ### Memory-side engines and pages (R241 to R245, R316 to R322) -/

/-- The subscription that the command `i`, an `ms.sub` or `ms.pull`, of thread `t` starts on handle `h` (R316, R320). -/
def subscriptionOf (s : State) (t : Thread) (i : Instr) (h : Nat) (bs : List Byte) (start : Nat) (left done : Option Nat) : Sub :=
  { id := s.nextCmd
    name := { thread := t.num, part := t.part, inst := t.inst, ordinal := t.ordinal, actor := t.actor
              acct := accountOf t, pc := t.pc, seq := t.seq + 1, operand := operandAddr i t }
    mse := (t.handle h).peer, thread := some t.num, tileActor := t.actor, level := t.level, handle := h, desc := t.handle h
    tile := t.num / 4, record := bs, row := start, posted := s.readNat (aStore (t.num / 4) + (t.handle h).lrcb) 8, left, done
    cmd := s.nextCmd, fence := t.fence, inRegion := t.region.isSome }

/-- The instruction `i` starts a subscription and takes a sequence number. -/
def Subscribes (s : State) (t : Thread) (i : Instr) (v : Sub) : Prop :=
  ∃ u, exec i s = .next u ∧
    u = { s with threads := tabSet s.threads t.num (goesOn { issuedBy s t with seq := t.seq + 1 } (lengthBytes i)), tiles := u.tiles, tlb := u.tlb,
                 meters := u.meters, accounts := u.accounts, fresh := u.fresh, arrays := u.arrays, pubBy := some (t.part, t.inst, t.ordinal)
                 nextCmd := s.nextCmd + 1, subs := s.subs ++ [v] } ∧
    ∀ n, TraceOnly (s.tile n) (u.tile n)

/-- A subscription of a thread that is served next (R322), in the middle of its tensor, of a running instance. -/
abbrev Served (s : State) (n : Nat) (u : Sub) (i : Inst) : Prop :=
  s.subs.find? (fun x => decide (x.id = n)) = some u ∧ s.mseChoice u.mse = some n ∧ u.actor = 0xFFFF ∧ s.subInst u = some i ∧
    u.left = none ∧ u.stopping = false ∧ u.finished = false

/-! ### Firings and queues (R236 to R242, R256, R324 to R333) -/

/-- Nothing of the instance of thread `t` is held back: it runs, with no cut in progress, pending or to be continued, and
its partition replays no log. -/
abbrev RunsFreely (s : State) (t : Thread) (i : Inst) : Prop :=
  s.inst? t.part t.inst = some i ∧ i.state = .running ∧ i.cut = none ∧ i.pending = none ∧ i.goOn = none ∧ (s.part t.part).replay = []

/-- Only the thread changes, and it goes on after `i`. -/
def GoesOnAs (s : State) (t : Thread) (i : Instr) (t' : Thread) : Prop :=
  ∃ u, exec i s = .next u ∧ OnlyThread s u t (goesOn t' 4)

/-- The instruction starts a cut of the thread's instance with these purposes and becomes its LASTCUT (R250, R256). -/
def StartsCut (s : State) (t : Thread) (i : Inst) (ins : Instr) (purposes : BitVec 6) (mode user : Nat) (deadline : Option Nat) : Prop :=
  ∃ u j c, exec ins s = .next u ∧ u.mem = s.mem ∧ u.inst? t.part t.inst = some j ∧ j.state = .cutting ∧ j.started = i.started + 1 ∧
    j.cut = some c ∧ c.num = (i.started + 1).toNat ∧ c.purposes = purposes ∧ c.mode = mode ∧ c.user = user ∧ c.deadline = deadline ∧
    u.thread? t.num = some (goesOn { issuedBy s t with lastCut := word c.num, aligned := false } 4)

/-- The state in which a queue instruction of the thread has its effect, with the queue it names mapped and used now. -/
def queueIn (s : State) (t : Thread) (q : NewtQueue) : State :=
  ((issuedIn s t).chargeThread (issuedBy s t) 0x3A 1).setQueue { q with lastUsed := s.steps }

/-- The mapped queues with one changed. -/
def queuesWith (s : State) (q : NewtQueue) : List NewtQueue := s.queues.map fun x => if x.part = q.part ∧ x.q = q.q then q else x

/-- The partition's log after one more record. -/
def LogGrows (s u : State) (part : Nat) (r : LogRec) : Prop := (u.part part).log = (s.part part).log ++ [r]

/-! ### Launches, instances and contexts (R228 to R235, R247 to R256, R364 to R367) -/

/-- The bytes of a read that passes. -/
def bytesOf (r : State × Except (Nat × Nat) (List Byte)) : List Byte := match r.2 with | .ok bs => bs | .error _ => []

/-- What a launch reads, in this order, each with the state after it (R229 step 1): the image header, the section table, the
graph header, the actor table, the ring table and the rate blocks. -/
structure LaunchReads where
  h : State × Except (Nat × Nat) (List Byte)
  tab : State × Except (Nat × Nat) (List Byte)
  g : State × Except (Nat × Nat) (List Byte)
  ab : State × Except (Nat × Nat) (List Byte)
  rb : State × Except (Nat × Nat) (List Byte)
  tb : State × Except (Nat × Nat) (List Byte)

/-- A section of the image that has been read: its offset and size (R58). -/
def LaunchReads.sect (r : LaunchReads) (kind : Nat) : Nat × Nat := (sectionOf (bytesOf r.tab) (field (bytesOf r.h) 6 2) kind).getD (0, 0)

/-- The reads of the launch of a block. -/
def launchReads (s : State) (part : Nat) (w : Launcher) (b : List Byte) : LaunchReads :=
  let img := field b 0 8
  let h := s.readSpan part w img 64
  let tab := h.1.readSpan part w (img + field (bytesOf h) 8 8) (32 * field (bytesOf h) 6 2)
  let base := img + ((sectionOf (bytesOf tab) (field (bytesOf h) 6 2) 5).getD (0, 0)).1
  let g := tab.1.readSpan part w base 64
  let hd := bytesOf g
  let ab := g.1.readSpan part w (base + field hd 16 4) (64 * field hd 4 2)
  let rb := ab.1.readSpan part w (base + field hd 20 4) (32 * field hd 6 2)
  let tb := rb.1.readSpan part w (base + field hd 24 4) (544 * field hd 1 1 * field hd 4 2)
  { h, tab, g, ab, rb, tb }

/-- The entries of the actor, ring and rate tables. -/
def LaunchReads.actors (r : LaunchReads) : List (List Byte) := entries (bytesOf r.ab) 64 (field (bytesOf r.g) 4 2)
def LaunchReads.rings (r : LaunchReads) : List (List Byte) := entries (bytesOf r.rb) 32 (field (bytesOf r.g) 6 2)
def LaunchReads.rates (r : LaunchReads) : List (List Byte) := entries (bytesOf r.tb) 544 (field (bytesOf r.g) 1 1 * field (bytesOf r.g) 4 2)

/-- DEPTH of the ring that a handle of an actor is bound to (R226). -/
def LaunchReads.depth (r : LaunchReads) (a h : Nat) : Option Nat :=
  let v := ((r.actors.map actorOf).getD a {}).hmap.getD h 0xFFFF
  if v = 0xFFFF then none else some ((r.rings.map ringOf).getD (v % 4096) {}).depth

/-- The block, the image and the template pass the checks of R228, R58 and R223 to R226. -/
abbrev TemplatePasses (r : LaunchReads) (part : Nat) (b : List Byte) : Prop :=
  let hd := bytesOf r.g
  let nact := field hd 4 2
  firstBad (blockChecks b) = none ∧ r.h.2.isOk = true ∧ firstBad (imageChecks (bytesOf r.h)) = none ∧ r.tab.2.isOk = true ∧
    badEntry 32 sectionChecks (entries (bytesOf r.tab) 32 (field (bytesOf r.h) 6 2)) = none ∧
    (sectionOf (bytesOf r.tab) (field (bytesOf r.h) 6 2) 5).isSome = true ∧ r.g.2.isOk = true ∧
    firstBad (headerChecks hd (r.sect 3).2 (r.sect 5).2) = none ∧ r.ab.2.isOk = true ∧ r.rb.2.isOk = true ∧ r.tb.2.isOk = true ∧
    badEntry 64 (actorChecks · (field hd 6 2)) r.actors = none ∧
    (∀ k < field hd 6 2, firstBad (ringChecks (r.rings.getD k []) nact fun l => r.tb.1.arcFree part l k) = none) ∧
    ∀ k < field hd 1 1 * nact,
      firstBad (rateChecks (r.rates.getD k []) (decide (((r.actors.map actorOf).getD (k % nact) {}).kind = 3)) (r.depth (k % nact))) = none

/-- The instance that a launch makes of a template with its actors placed (R228, R229 steps 2 and 8). -/
def instanceOf (r : LaunchReads) (part : Nat) (w : Launcher) (b : List Byte) (base num seq : Nat) (placed : List Actor) : Inst :=
  let hd := bytesOf r.g
  let img := field b 0 8
  { part, num, args := word (field b 8 8), doneVa := field b 0x10 8, level := w.level, acct := w.acct, prio := field hd 0 4 / 2 ^ 20 % 4
    textVa := img + (r.sect 1).1, dataVa := img + (r.sect 2).1, pagesVa := img + (r.sect 3).1, kywinVa := img + (r.sect 4).1
    kywinSize := (r.sect 4).2, npage := field hd 10 2, nmode := field hd 1 1, initMode := field hd 0 4 / 2 ^ 16 % 16, rmin := field hd 8 1
    mcdl := field hd 12 4, actors := placed, rings := r.rings.map ringOf, rates := r.rates.map rateOf, mode := field hd 0 4 / 2 ^ 16 % 16
    base, launchSeq := seq }

/-- Every check of a launch passes, and its actors have their tiles: `i` is the instance, `cells` what sets its rings up, and `s2` the state in
which it is created (R229 steps 1 to 6). -/
abbrev LaunchPasses (s s2 : State) (part : Nat) (w : Launcher) (b : List Byte) (base : Nat) (i : Inst) (cells : List (Nat × Byte)) : Prop :=
  let r := launchReads s part w b
  let last := r.tb.1
  TemplatePasses r part b ∧
  ∃ (placed : List Actor) (s1 : State) (ws : List Byte),
    last.placeActors (last.part part).tiles base (r.actors.map actorOf) [] = some placed ∧
    last.readInits (instanceOf r part w b base 0 0 placed) w (r.rings.map ringOf) = (s1, .ok cells) ∧
    s1.readSpan part w i.kywinVa (i.kywinSize / 32 * 32) = (s2, .ok ws) ∧
    (∀ k < i.kywinSize / 32, s2.windowOk part ((ws.drop (32 * k)).take 32) = true) ∧
    i = instanceOf r part w b base (s2.part part).instNext s2.steps placed

/-- No thread of the machine and no instance has the instance's number. -/
abbrev NewNumber (s : State) (i : Inst) : Prop := s.inst? i.part i.num = none ∧ s.threadsOf i.part i.num = []

/-- The handle that HMAP gives an actor's handle `h` (R229 step 5): the descriptor fields of R189 from the ring entry. -/
def handleOf (i : Inst) (a h : Nat) : Handle :=
  let v := (i.actors.getD a {}).hmap.getD h 0xFFFF
  let tileOf (x : Nat) : Option Nat := (i.actors[x]?).bind fun y => if y.kind = 0 ∨ y.kind = 3 then some y.tile else none
  match i.rings[v % 4096]? with
  | none => {}
  | some r =>
    if v = 0xFFFF then {}
    else
      let prod := decide (v / 4096 % 2 = 1)
      let other := if prod then r.cons else r.prod
      let own := (tileOf (if prod then r.prod else r.cons)).getD 0
      let kind := if other = 0xFFFF then 2 else if (tileOf other).isSome then 0 else 1
      let peer := if kind = 2 then r.arc else if kind = 1 then Config.mseOf other own % 16 else (tileOf other).getD 0
      let l := if prod then r.pcb else r.ccb
      let far := if kind ≠ 0 then 0 else if prod then r.ccb else r.pcb
      { bound := true, d0 := word (r.base + l * 2 ^ 20 + far * 2 ^ 40 + (if prod then 2 ^ 60 else 0))
        d1 := word (r.slot64 + r.depth * 2 ^ 10 + peer * 2 ^ 22 + kind * 2 ^ 30)
        d3 := if prod ∧ kind = 0 ∧ r.pvaBase ≠ 0 then word (r.pvaBase + 2 ^ 21 * peer) else 0
        l := if prod then word r.delay else 0 }

/-- The thread of actor `a` of a new instance in a slot (R230). -/
def threadOf (i : Inst) (a slot prio : Nat) (state : SlotState) : Thread :=
  let x := i.actors.getD a {}
  { ((({ num := slot } : Thread).setReg 1 (word i.num)).setReg 2 i.args).setReg 3 (word a) with
    pc := word (i.textVa + x.entry), sw := word (i.level + 8 * min x.prio prio + 32 * i.acct), part := i.part, inst := i.num, actor := a
    worker := decide (x.kind = 3), ordinal := a, maxLevel := i.level, handles := Vector.ofFn fun h => handleOf i a h.val, state }

/-- The bytes that set a ring up (R229 step 4): the control blocks are zero but for DELAY, and the initial slots stand at the
consumer's tile, or at the producer's where the consumer has none. -/
def ringSetUp (i : Inst) (r : Ring) (init : List Byte) : List (Nat × Byte) :=
  let tileOf (x : Nat) : Option Nat := (i.actors[x]?).bind fun y => if y.kind = 0 ∨ y.kind = 3 then some y.tile else none
  let at_ (tile : Option Nat) (off : Nat) (bs : List Byte) : List (Nat × Byte) := match tile with | some n => cellsAt (aStore n + off) bs | none => []
  at_ (tileOf r.cons) r.ccb (zeros 64) ++ at_ (tileOf r.prod) r.pcb (zeros 64) ++
    at_ (if (tileOf r.cons).isSome then tileOf r.cons else tileOf r.prod) r.base init ++
    (if r.delay = 0 then [] else at_ (tileOf r.prod) (r.pcb + 8) (leBytes 8 r.delay) ++ at_ (tileOf r.cons) r.ccb (leBytes 8 r.delay))

/-- What an instance without MSE actors begins as (R229 steps 2, 4, 5 and 8): `v` has it with its threads, in `state`, and memory holds what sets its
rings up; every other thread stands as it did. -/
def Created (s v : State) (i : Inst) (prio : Nat) (cells : List (Nat × Byte)) (state : SlotState) : Prop :=
  v.insts = s.insts ++ [i] ∧ v.mem = s.mem.write cells ∧
    (v.part i.part).instNext = (if (i.num + 1) % 2 ^ 32 = 0 then 1 else (i.num + 1) % 2 ^ 32) ∧
    (∀ a < i.actors.length, ∃ n, n / 4 = (i.actors.getD a {}).tile ∧ s.thread? n = none ∧ v.thread? n = some (threadOf i a n prio state)) ∧
    ∀ n t, s.thread? n = some t → (v.thread? n).map unseen = some (unseen t)

/-- How a created instance without MSE actors starts: Running, or, where its account is exhausted or the partition has too few regions, with its
threads Stopped (R229 step 8, R344). -/
def Starts_ (c s v : State) (i : Inst) (prio : Nat) (cells : List (Nat × Byte)) : Prop :=
  (c.exhausted i.acct = false → i.rmin ≤ (c.part i.part).tiles.length → Created s v i prio cells .ready) ∧
  (c.exhausted i.acct = true → Created s v { i with state := .quota, stoppedSince := s.dev.elapsed } prio cells .stopped) ∧
  (c.exhausted i.acct = false → (c.part i.part).tiles.length < i.rmin →
    Created s v { i with state := .suspendedRegions, stoppedSince := s.dev.elapsed } prio cells .stopped)

/-- The instance's cut, purposes and deadline after a request that starts one (R250). -/
def CutStarts (u : State) (i : Inst) (purposes : BitVec 6) (deadline : Option Nat) : Prop :=
  ∃ j c, u.inst? i.part i.num = some j ∧ j.state = .cutting ∧ j.started = i.started + 1 ∧ j.cut = some c ∧
    c.num = (i.started + 1).toNat ∧ c.purposes = purposes ∧ c.deadline = deadline

/-- An instance of the state that runs with nothing requested, while no thread waits and its partition replays no log. -/
abbrev Undisturbed (s : State) (i : Inst) : Prop :=
  s.inst? i.part i.num = some i ∧ i.state = .running ∧ i.cut = none ∧ i.pending = none ∧ i.goOn = none ∧ (s.part i.part).replay = [] ∧
    ∀ e ∈ s.threads, e.2.wait = none

/-- Nothing of the instance is left but its entry: no thread, page or subscription. -/
abbrev Bare (s : State) (part inst : Nat) : Prop :=
  s.threadsOf part inst = [] ∧ (∀ e ∈ s.pages, ¬(e.2.part = part ∧ e.2.inst = inst)) ∧
    ∀ u ∈ s.subs, ¬(u.name.part = part ∧ u.name.inst = inst)

/-- The word 0xSS_OOOO_IIII... of `TC_CTXSEL` with its offset moved on by one (R366). -/
def nextOffset (v : Word) : Word := word (v.toNat % 2 ^ 48 + (v.toNat / 2 ^ 48 % 256 + 1) % 256 * 2 ^ 48)

/-! ### Energy, traces and checkpoints (R335 to R352, R386 to R401) -/

/-- The energy accounting of the thread's tile has room for its account, so that nothing flushes (R336). -/
abbrev NoSpill (s : State) (t : Thread) : Prop := (tabGet [] s.meters (s.islandOf (t.num / 4))).length ≤ 7

/-- The selector names item `item` of a function's account `acct`, by its number or as the thread's own (0x7F), and the thread
may reach it at its level (R348). -/
abbrev Names (s : State) (t : Thread) (v : Word) (item acct : Nat) : Prop :=
  ∃ n, v.toNat = item + 16 * n ∧ n < 128 ∧ acct = (if n = 0x7F then t.acct else n) ∧ item ≤ 11 ∧ acct < 64 ∧
    (t.level < 2 → item ≠ 8 ∧ item ≠ 9 ∧ item ≠ 10) ∧ (t.level = 0 → acct = t.acct) ∧ (t.level = 1 → acct ∈ (s.part t.part).functions)

/-- The item of an account that `en.rd` reads (R340). -/
def itemOf (s : State) (part item acct : Nat) : Word :=
  let a := s.account acct
  [a.acct, a.quota, a.reserve, a.shared, a.status, a.low, a.weight, a.dyn16, s.dev.pkg, s.dev.spool, s.dev.resid, (s.part part).pool].getD item 0

/-- An energy instruction completes: the thread goes on as `t'`; beside the meters the accounts and the partitions become
these. -/
def EnergyNext (s : State) (t : Thread) (i : Instr) (t' : Thread) (accounts : Tab Account) (parts : Tab Partition) : Prop :=
  ∃ u, exec i s = .next u ∧ u = { s with threads := tabSet s.threads t.num (goesOn t' 4), meters := u.meters, fresh := u.fresh
                                         accounts := accounts, parts := parts, pubBy := some (t.part, t.inst, t.ordinal) }

/-- Partition `part` with its log one record longer and this pool. -/
def logged (s : State) (part : Nat) (r : LogRec) (pool : Word) : Partition :=
  { s.part part with log := (s.part part).log ++ [r], pool := pool }

/-- The flush of an accumulator's content into an account (R336, R342, R343). -/
def Flushed (a b : Account) (content : Nat) : Prop :=
  let n := (a.fine + content) / 256000
  b.fine = (a.fine + content) % 256000 ∧ b.acct = a.acct + word n ∧ b.dynNow = a.dynNow + n ∧ b.shared = a.shared ∧ b.low = a.low ∧
    b.weight = a.weight ∧ b.quota = (if a.quota = allOnes then allOnes else word (a.quota.toNat - n))

/-- A tile's trace takes one more record of a kind and a thread: it runs, it is enabled for both, no freeze is due or counted down to, the
cycle has room for a record and so has the buffer (R386, R387, R389). -/
abbrev TraceRuns (b : Tile) (kind thread : Nat) : Prop :=
  b.trcCtl.getLsbD 0 = true ∧ b.trcCtl.getLsbD (1 + kind) = true ∧ b.trcCtl.getLsbD (12 + thread) = true ∧ b.trcFrozen = false ∧
    b.trcPost = none ∧ b.trcRecent < 2 ∧ b.trcWptr = b.trace.length ∧ b.trcWptr < 2047

/-! ### Partitions (R370 to R373, R412, R403) -/

/-- The device with the request of a side completed with a status (R372). -/
def requestDone (d : Device) (side : Bool) (st : Nat) : Device :=
  let c := if side then d.teth else d.pf
  let c1 : Control := { c with busy := false, status := st, done := (c.done + 1) % 2 ^ 32 }
  if side then { d with teth := c1 } else { d with pf := c1 }

/-- The request of side `side` is performed next: it stands there, and the other side's, if any, came later, or in the same
step where `side` is Tethys (R15). -/
abbrev Stands (s : State) (side : Bool) (code part : Nat) (arg0 arg1 : Word) : Prop :=
  let c := if side then s.dev.teth else s.dev.pf
  let o := if side then s.dev.pf else s.dev.teth
  c.busy = true ∧ c.cmd.toNat % 2 ^ 8 = code ∧ c.cmd.toNat / 2 ^ 8 % 2 ^ 6 = part ∧ c.arg0 = arg0 ∧ c.arg1 = arg1 ∧
    (o.busy = true → c.since < o.since ∨ c.since = o.since ∧ side = true)

/-- The address lies in one of these granules, or in the aperture of one of these tiles. -/
abbrev Covered (granules tiles : List Nat) (a : Nat) : Prop :=
  (∃ g ∈ granules, g * 2 ^ 30 ≤ a ∧ a < g * 2 ^ 30 + 2 ^ 30) ∨ ∃ n ∈ tiles, apertureBase n ≤ a ∧ a < apertureBase n + 0x200000

/-- These granules and tile stores read as zeros with cleared descriptors, and every other byte and descriptor is as it was. -/
def Wiped (s u : State) (granules tiles : List Nat) : Prop :=
  ∀ a, (Covered granules tiles a → u.readByte a = 0 ∧ u.descAt a = 0) ∧
    (¬Covered granules tiles a → u.readByte a = s.readByte a ∧ u.descAt a = s.descAt a)

/-- Memory and descriptors are in canonical form. -/
abbrev Canonical (s : State) : Prop := s.mem.wf = true ∧ sparseWf 0 s.descs = true

/-- Every instance of the partition is bare and has no completion word. -/
abbrev OnlyBare (s : State) (part : Nat) : Prop := ∀ i ∈ s.insts, i.part = part → i.doneVa = 0 ∧ Bare s part i.num

/-- The request completes with this status and nothing else changes. -/
def Answers (s : State) (side : Bool) (i : Instr) (st : Nat) : Prop := exec i s = .next { s with dev := requestDone s.dev side st }

/-- The functions of a mask, ascending. -/
def functionsOf (m : Word) : List Nat := (List.range 64).filter fun f => m.getLsbD f

/-! ### Apertures, arc links and error events (R373 to R379, R417) -/

/-- From `s` to `u` an error record enters the device error log, whose state is otherwise `d`, with the next identifier of its owner, or
of the log itself (R378, R379); where it has an owner, a record goes to that partition. -/
def Reports (s u : State) (d : Device) (owner : Option Nat) (cause : Nat) : Prop :=
  let after (n : Nat) : Nat := if (n + 1) % 2 ^ 32 = 0 then 1 else (n + 1) % 2 ^ 32
  (∃ r : Record, r.cause = cause ∧ r.kind = 3 ∧ r.time = d.time ∧ r.id = (match owner with | some p => (s.part p).recNext | none => d.errNext) ∧
    u.dev = { d with errLog := (d.errLog ++ [r]).drop (d.errLog.length + 1 - 256), errTail := d.errTail + 1
                     errLost := (if 256 ≤ d.errTail - d.errHead then d.errLost + 1 else d.errLost)
                     errNext := (if owner.isNone then after d.errNext else d.errNext) }) ∧
  ∀ p, (u.part p).recNext = if owner = some p then after (s.part p).recNext else (s.part p).recNext

/-- A host access of `n` bytes inside one block passes translation at level U of its partition at this physical address (R375). -/
abbrev HostPasses (s s1 : State) (part : Nat) (acc : Access) (va n pa : Nat) : Prop :=
  0 < n ∧ va < 2 ^ 56 ∧ va % 64 + n ≤ 64 ∧ s.translate 0 part 0 false acc va n = (s1, .ok pa)

/-- The ring of an arc at its device end, which lies in a tile's store (R376). -/
abbrev ArcEnd (s : State) (link ring : Nat) (incoming : Bool) (i : Inst) (r : Ring) (tile : Nat) : Prop :=
  s.arc link ring incoming = some (i, r) ∧ i.endTile (if incoming then r.cons else r.prod) = some tile ∧ tile < 192 ∧ (s.link link).up = true

/-! ### Tethys and the device's life (R405 to R416) -/

/-- Tethys is booted and acts on no request (R406). -/
abbrev Listens (s : State) : Prop := s.teth.booted = true ∧ s.teth.pendingToken = none ∧ s.teth.loading = none

/-- Tethys answers with this and nothing else changes. -/
def Responds (s : State) (i : Instr) (r : List Nat) : Prop := exec i s = .next { s with teth := { s.teth with response := r } }

/-- The operator's signature over a command code, a counter and arguments, with a counter above the last one (R406). -/
abbrev Signed (s : State) (code ctr sig : Nat) (args : List Nat) : Prop :=
  s.teth.counter < ctr ∧ ctr < 2 ^ 32 ∧ Config.ed448Check s.teth.operatorKey (Config.shake256 (code :: ctr :: args)) sig = true

/-- A signed request: `after`, with the counter accepted, where it is authentic; else it is refused and nothing else changes. -/
def SignedAnswer (s : State) (i : Instr) (code ctr sig : Nat) (args : List Nat) (after : State → State → Prop) : Prop :=
  (Signed s code ctr sig args → ∃ u, exec i s = .next u ∧ u.teth.counter = ctr ∧ after { s with teth := { s.teth with counter := ctr } } u) ∧
  (¬Signed s code ctr sig args → Responds s i [1])

/-- The device identifier (R413). -/
def identifier (t : Tethys) : Nat := Config.shake256 [t.identity] % 2 ^ 128

/-- Tethys after an unlock's steps 3 to 5, whose partitions have gone before (R416). -/
def unlocked (t : Tethys) (token : Nat) : Tethys :=
  let n := (t.unlocks + 1) % 2 ^ 16
  { t with unlocks := n, kek := none, nonce := none, pendingToken := none, m3 := Config.digest64 [t.m3.toNat, Config.shake256 [token]], m2 := Config.digest64 [t.m2.toNat, n] }

/-- The one image that stands in flash (R407). -/
def imageOf (t : Tethys) : FwImage := t.flash.getD Config.factoryImage

/-- The image carries the signature of the firmware key, whose digest is fused, and is not rolled back (R407, R408). -/
abbrev Authentic (f : FwImage) (rollback : Nat) : Prop :=
  Config.shake256 [f.key] = Config.firmwareDigest ∧ Config.ed448Check f.key (Config.shake256 [f.version, f.index, f.body]) f.sig = true ∧
    rollback ≤ f.index

/-- Tethys starts from the image in flash, which is complete and authentic (R408). -/
abbrev Starts (t : Tethys) : Prop := t.flashWhole = true ∧ Authentic (imageOf t) t.rollback

/-- Everything but the device's own registers and the counter of free values stays. -/
def OnlyDevice (s u : State) : Prop := u = { s with dev := u.dev, fresh := u.fresh }

/-! ### The whole machine (R14, R26 to R46, R85, R90, R157) -/

/-- An element operation (R43). -/
def isElement : Instr → Bool
  | .iadd _ _ _ _ _ | .isub _ _ _ _ _ | .imul _ _ _ _ _ | .imulh _ _ _ _ | .iand _ _ _ _ | .ior _ _ _ _ | .ixor _ _ _ _ | .ishl _ _ _ _
  | .ishr _ _ _ _ | .isar _ _ _ _ | .imin _ _ _ _ | .imax _ _ _ _ | .iminu _ _ _ _ | .imaxu _ _ _ _ | .iabs _ _ _ _ _ | .icmp _ _ _ _ _
  | .fadd _ _ _ _ _ | .fsub _ _ _ _ _ | .fmul _ _ _ _ _ | .ffma _ _ _ _ _ | .fmin _ _ _ _ | .fmax _ _ _ _ | .fabs _ _ _ _
  | .fneg _ _ _ _ | .fcmp _ _ _ _ _ | .rndi _ _ _ _ _ | .fxp _ _ _ _ | .expins _ _ _ _ | .expext _ _ _ _ | .frcp _ _ _ _
  | .frsq _ _ _ _ | .badd2 _ _ _ _ _ | .bsub2 _ _ _ _ _ | .bmul2 _ _ _ _ _ | .bfma2 _ _ _ _ _ | .bmin2 _ _ _ _ | .bmax2 _ _ _ _
  | .i2f _ _ _ _ _ | .f2i _ _ _ _ _ | .f2b _ _ _ _ _ | .b2f _ _ _ _ | .b2fh _ _ _ _ | .esel _ _ _ _ | .steer _ _ _ _ | .merge _ _ _ _
  | .gate _ _ _ _ | .dup _ _ _ _ | .acc _ _ _ _ _ | .tagset _ _ _ _ | .pass _ _ _ _ | .ends _ _ _ _ | .cnt _ _ _ _ | .agl _ | .ags _
  | .agc _ | .rin _ _ _ | .rout _ | .rep _ _ _ => true
  | _ => false

/-- The turn of a step: the first that the state holds, or the free schedule's. -/
def turnOf (s : State) : Turn := match s.turns with | t :: _ => t | [] => Config.turn s.steps

/-- The state in which a turn acts. -/
def begun (s : State) : State := { s with turns := s.turns.tail, steps := s.steps + 1, pubBy := none }

/-- The thread's fetch of the word at `pc` passes in `s`, gives `w` and leaves `s1` (R90, R441). -/
abbrev FetchesWord (s s1 : State) (t : Thread) (pc : Word) (w : Half) : Prop := s.fetchWord t pc = (s1, .ok w)

/-- A live Ready thread of a tile, whose next event no replay or checkpoint copy holds (R403, R399). -/
abbrev ReadyAt (s : State) (tile k : Nat) (t : Thread) : Prop :=
  k < 4 ∧ s.thread? (4 * tile + k) = some t ∧ t.state = .ready ∧ s.heldBack t = false

end Sys2Proof.Claims

open Sys2Proof Sys2Proof.Machine Sys2Proof.Claims

/-! ### Scalar instructions -/

/-- R92 to R94: the two-source instructions of major 0x00, and the extensions of R93.
R93, R98: `clz`, `ctz` and `popc` write the number of leading zero, trailing zero and one bits; `bfi` replaces the field of its
destination and keeps every other bit of it.
R95, R96, R98 (`bfx`), R99: the immediates, `lea`, `bfx` and `sel`.
R97: each compare writes its predicate (a write of `p0` is discarded, R91) and changes nothing else but the trace. -/
def Obligations.ScalarInstructionsWriteTheirValue : Prop :=
  (
    (∀ f ∈ binaryForms, ∀ (s : State) (t : Thread) (d a b : BitVec 5), Issues s t →
      Writes s t (f.1 d a b) d (f.2 (t.reg a.toNat) (t.reg b.toNat))) ∧
    (∀ f ∈ extensionForms, ∀ (s : State) (t : Thread) (d a : BitVec 5), Issues s t → Writes s t (f.1 d a) d (f.2 (t.reg a.toNat)))) ∧
  (
    (
      ∀ (s : State) (t : Thread) (d a : BitVec 5), Issues s t →
        let x := t.reg a.toNat
        (∃ n, n ≤ 64 ∧ (∀ k, k < n → x.getMsbD k = false) ∧ (n < 64 → x.getMsbD n = true) ∧ Writes s t (.clz d a) d (word n)) ∧
        (∃ n, n ≤ 64 ∧ (∀ k, k < n → x.getLsbD k = false) ∧ (n < 64 → x.getLsbD n = true) ∧ Writes s t (.ctz d a) d (word n)) ∧
        Writes s t (.popc d a) d (word ((List.range 64).countP x.getLsbD))) ∧
    (
      ∀ (s : State) (t : Thread) (d a : BitVec 5) (w p : BitVec 6), Issues s t → p.toNat + w.toNat + 1 ≤ 64 →
        ∃ v : Word, (∀ k, k < 64 → v.getLsbD k =
            if p.toNat ≤ k ∧ k ≤ p.toNat + w.toNat then (t.reg a.toNat).getLsbD (k - p.toNat) else (t.reg d.toNat).getLsbD k) ∧
          Writes s t (.bfi d a w p) d v)) ∧
  (
    ∀ (s : State) (t : Thread) (d a b : BitVec 5), Issues s t →
      (∀ imm : BitVec 16, Writes s t (.addi d a imm) d (BitVec.ofInt 64 ((t.reg a.toNat).toInt + imm.toInt)) ∧
        Writes s t (.movi d imm) d (BitVec.ofInt 64 imm.toInt) ∧
        Writes s t (.movhi d imm) d (word ((t.reg d.toNat).toNat * 2 ^ 16 + imm.toNat))) ∧
      (∀ sh : BitVec 3, Writes s t (.lea d a b sh) d (word ((t.reg a.toNat).toNat + (t.reg b.toNat).toNat * 2 ^ sh.toNat))) ∧
      (∀ w p : BitVec 6, p.toNat + w.toNat + 1 ≤ 64 →
        Writes s t (.bfx d a w p) d (word ((t.reg a.toNat).toNat / 2 ^ p.toNat % 2 ^ (w.toNat + 1)))) ∧
      (∀ (n : BitVec 1) (p : BitVec 3), Writes s t (.sel d a b n p) d
        (if t.pred p.toNat ≠ decide (n = 1) then t.reg a.toNat else t.reg b.toNat))) ∧
  (
    ∀ f ∈ compareForms, ∀ (s : State) (t : Thread) (p a b : BitVec 5), Issues s t → p.toNat ≤ 7 →
      ∃ u, exec (f.1 p a b) s = .next u ∧
        ThreadAndTrace s u t (goesOn ((issuedBy s t).setPred p.toNat (f.2 (t.reg a.toNat) (t.reg b.toNat))) 4))

/-- R100 to R103: branches, `call`, `loop`, and `jmp` and `ret` with an aligned target, go where the rules say and write
the link or the count. Their words are those of majors 0x10, 0x11 and 0x13. -/
def Obligations.TransfersGoToTheirTarget : Prop :=
  (∀ (p : BitVec 3) (n : BitVec 1) (o : BitVec 22) (a : BitVec 5) (imm : BitVec 16),
    encodeNat (.bc p n o) = [0x40000000 + p.toNat * 2 ^ 23 + n.toNat * 2 ^ 22 + o.toNat] ∧ encodeNat (.br o) = [0x40000000 + o.toNat] ∧
    encodeNat (.call o) = [0x44000000 + o.toNat] ∧ encodeNat (.loop a imm) = [0x4C000000 + a.toNat * 2 ^ 16 + imm.toNat]) ∧
  ∀ (s : State) (t : Thread), Issues s t →
    (∀ (p : BitVec 3) (n : BitVec 1) (o : BitVec 22), ¬ (p = 0 ∧ n = 0) →
      GoesTo s t (.bc p n o) (issuedBy s t) (if t.pred p.toNat ≠ decide (n = 1) then wordsFrom t o.toInt else t.pc + 4)) ∧
    (∀ o : BitVec 22, GoesTo s t (.br o) (issuedBy s t) (wordsFrom t o.toInt) ∧
      GoesTo s t (.call o) ((issuedBy s t).setReg 31 (t.pc + 4)) (wordsFrom t o.toInt)) ∧
    (∀ a : BitVec 5, (t.reg a.toNat).toNat % 4 = 0 → GoesTo s t (.jmp a) (issuedBy s t) (t.reg a.toNat)) ∧
    ((t.reg 31).toNat % 4 = 0 → GoesTo s t .ret (issuedBy s t) (t.reg 31)) ∧
    (∀ (a : BitVec 5) (imm : BitVec 16),
      GoesTo s t (.loop a imm) ((issuedBy s t).setReg a.toNat (t.reg a.toNat - 1))
        (if t.reg a.toNat ≠ 1 then wordsFrom t imm.toInt else t.pc + 4))

/-- R102, R126, R128, R130, R137: `jmp` and `ret` with a target that is no multiple of 4 raise ALIGN with the target; a load, store,
pair, atomic or wait whose address is not aligned to its size raises ALIGN with the address. -/
def Obligations.MisalignedTargetsAndAccessesRaiseAlign : Prop :=
  (
    ∀ (s : State) (t : Thread) (a : BitVec 5), Issues s t →
      ((t.reg a.toNat).toNat % 4 ≠ 0 →
        exec (.jmp a) s = .next ((issuedIn s t).takeTrap (issuedBy s t) 0x03 (t.reg a.toNat) t.pc t.seq t.pc)) ∧
      ((t.reg 31).toNat % 4 ≠ 0 →
        exec .ret s = .next ((issuedIn s t).takeTrap (issuedBy s t) 0x03 (t.reg 31) t.pc t.seq t.pc))) ∧
  (
    ∀ (s : State) (t : Thread) (d a b : BitVec 5) (sp z c : BitVec 2) (o : BitVec 11) (o' : BitVec 13), Issues s t → sp ≠ 3 →
      let aligns (i : Instr) (ea : Word) : Prop := exec i s = .next ((issuedIn s t).takeTrap (issuedBy s t) 0x03 ea t.pc t.seq t.pc)
      (∀ f ∈ loadForms, (addressOf t a o.toInt f.2.1).toNat % f.2.1 ≠ 0 → aligns (f.1 d a sp o) (addressOf t a o.toInt f.2.1)) ∧
      (∀ f ∈ storeForms, (addressOf t a o.toInt f.2).toNat % f.2 ≠ 0 → aligns (f.1 d a sp o) (addressOf t a o.toInt f.2)) ∧
      (d ≠ 31 → (addressOf t a o'.toInt 16).toNat % 16 ≠ 0 →
        aligns (.ldp d a sp o') (addressOf t a o'.toInt 16) ∧ aligns (.stp d a sp o') (addressOf t a o'.toInt 16)) ∧
      (z.toNat ≤ 1 → (t.reg a.toNat).toNat % sizeOf_ z ≠ 0 →
        (∀ f ∈ atomicForms, aligns (f.1 d a b z sp c) (t.reg a.toNat)) ∧ aligns (.atCas d a b z sp c) (t.reg a.toNat) ∧
        aligns (.atLd d a z sp c) (t.reg a.toNat) ∧ aligns (.atSt d a b z sp c) (t.reg a.toNat)) ∧
      (z.toNat ≤ 1 → (addressOf t a o.toInt (sizeOf_ z)).toNat % sizeOf_ z ≠ 0 →
        aligns (.waitEq d a sp z o) (addressOf t a o.toInt (sizeOf_ z)) ∧ aligns (.waitNe d a sp z o) (addressOf t a o.toInt (sizeOf_ z))))

/-! ### Memory -/

/-- R120, R121: what a load returns does not depend on anything published after the thread's snapshot point.
R126, R120: an aligned load that passes Check writes its bytes, extended as its kind says, and changes nothing else. -/
def Obligations.LoadsWriteWhatTheirSnapshotHolds : Prop :=
  (
    ∀ (s : State) (t : Thread) (pa : Nat) (cells : List (Nat × Byte)) (blocks : List (Nat × BitVec 16)), t.snap ≤ s.pubCount →
      (s.publish cells blocks).loadByte t pa = s.loadByte t pa) ∧
  (
    ∀ f ∈ loadForms, ∀ (s : State) (t : Thread) (d a : BitVec 5) (sp : BitVec 2) (o : BitVec 11) (pa : Nat), Issues s t →
      (sp = 3 → 1 ≤ t.level) → (addressOf t a o.toInt f.2.1).toNat % f.2.1 = 0 →
      Passes s t sp.toNat .read (addressOf t a o.toInt f.2.1) f.2.1 pa →
      let n := leNat (loaded s t pa f.2.1)
      let v : Word := if f.2.2 then BitVec.ofInt 64 (BitVec.ofNat (8 * f.2.1) n).toInt else word n
      ∃ u, exec (f.1 d a sp o) s = .next u ∧ AccessOnly s u t (goesOn ((issuedBy s t).setReg d.toNat v) 4))

/-- R115, R127: an access in an own store that ends beyond the store's size gives PROT with its address, and any other that reads no
bad block passes at that offset of the store; a global address with a non-zero top byte gives PROT with the address. -/
def Obligations.AccessesOutsideTheirSpaceFail : Prop :=
  (
    ∀ (s : State) (t : Thread) (sp : Nat) (acc : Access) (ea : Word) (z : Nat), (sp = 1 ∨ sp = 2 ∨ sp = 3) →
      let size := if sp = 1 then 2 ^ 20 else if sp = 2 then 2 ^ 18 else 2 ^ 19
      let base := 2 ^ 51 + 2 ^ 21 * (t.num / 4) + (if sp = 1 then 0 else if sp = 2 then 0x180000 else 0x100000)
      (ea.toNat + z > size → (s.check t sp acc ea z).2 = .error (.cause 0x21 ea.toNat)) ∧
      (ea.toNat + z ≤ size → acc = .write ∨ s.badBlocks = [] → (s.check t sp acc ea z).2 = .ok (base + ea.toNat))) ∧
  (
    ∀ (s : State) (t : Thread) (acc : Access) (ea : Word) (z : Nat), 2 ^ 56 ≤ ea.toNat →
      (s.check t 0 acc ea z).2 = .error (.cause 0x21 ea.toNat))

/-- R126, R122: an aligned store that passes Check enters the thread's buffer and changes no byte of memory.
R128: `ldp` and `stp` move 16 bytes between s[d], s[d + 1] and memory. -/
def Obligations.StoresAndPairs : Prop :=
  (
    ∀ f ∈ storeForms, ∀ (s : State) (t : Thread) (d a : BitVec 5) (sp : BitVec 2) (o : BitVec 11) (pa : Nat), Issues s t → sp ≠ 3 →
      (addressOf t a o.toInt f.2).toNat % f.2 = 0 → Passes s t sp.toNat .write (addressOf t a o.toInt f.2) f.2 pa →
      ∃ u, exec (f.1 d a sp o) s = .next u ∧
        AccessOnly s u t (goesOn { issuedBy s t with
          buf := stored pa (addressOf t a o.toInt f.2).toNat (decide (sp = 0)) (accountOf t) (leBytes f.2 (t.reg d.toNat).toNat) ++ t.buf } 4)) ∧
  (
    ∀ (s : State) (t : Thread) (d a : BitVec 5) (sp : BitVec 2) (o : BitVec 13) (pa : Nat), Issues s t → d ≠ 31 →
      (addressOf t a o.toInt 16).toNat % 16 = 0 →
      ((sp = 3 → 1 ≤ t.level) → Passes s t sp.toNat .read (addressOf t a o.toInt 16) 16 pa →
        ∃ u, exec (.ldp d a sp o) s = .next u ∧ AccessOnly s u t (goesOn (((issuedBy s t).setReg d.toNat (word (leNat (loaded s t pa 8)))).setReg
          (d.toNat + 1) (word (leNat (loaded s t (pa + 8) 8)))) 4)) ∧
      (sp ≠ 3 → Passes s t sp.toNat .write (addressOf t a o.toInt 16) 16 pa →
        ∃ u, exec (.stp d a sp o) s = .next u ∧ AccessOnly s u t (goesOn { issuedBy s t with
          buf := stored pa (addressOf t a o.toInt 16).toNat (decide (sp = 0)) (accountOf t)
            (leBytes 8 (t.reg d.toNat).toNat ++ leBytes 8 (t.reg (d.toNat + 1)).toNat) ++ t.buf } 4)))

/-- R130: outside a replay an aligned atomic that passes Check reads the end of the publication order, writes its new
value there as one publication, and returns the old value zero-extended; every other byte stays.
R130, R121, R122: `at.cas` writes only where the old value is the expected one; `at.ld` writes nothing and acquires;
`at.st` publishes the buffered stores first, outside a region, and then writes. -/
def Obligations.AtomicsActAtTheEndOfTheOrder : Prop :=
  (
    ∀ f ∈ atomicForms, ∀ (s : State) (t : Thread) (d a b : BitVec 5) (z sp c : BitVec 2) (pa : Nat), Issues s t → sp ≠ 3 → z.toNat ≤ 1 →
      (s.part t.part).replay = [] → (t.reg a.toNat).toNat % sizeOf_ z = 0 → Passes s t sp.toNat .atomic (t.reg a.toNat) (sizeOf_ z) pa →
      let n := sizeOf_ z
      let old := s.readNat pa n
      ∃ u, exec (f.1 d a b z sp c) s = .next u ∧ PublishOnly s u t ∧
        u.mem = s.mem.write (cellsAt pa (leBytes n (f.2 (8 * n) old ((t.reg b.toNat).toNat % 256 ^ n)))) ∧ u.pubCount = s.pubCount + 1 ∧ (∀ y, y < pa ∨ pa + n ≤ y → u.readByte y = s.readByte y) ∧
        u.thread? t.num = some (goesOn ((issuedBy s t).setReg d.toNat (word old)) 4)) ∧
  (
    ∀ (s : State) (t : Thread) (d a b : BitVec 5) (z sp c : BitVec 2) (pa : Nat), Issues s t → sp ≠ 3 → z.toNat ≤ 1 →
      (s.part t.part).replay = [] → (t.reg a.toNat).toNat % sizeOf_ z = 0 →
      let n := sizeOf_ z
      let old := s.readNat pa n
      let x := (t.reg b.toNat).toNat % 256 ^ n
      let first := if t.region.isSome then s.mem else s.mem.write (bufCells t.buf)
      let old' := leNat ((List.range n).map fun k => sparseGet 0 first (pa + k))
      (Passes s t sp.toNat .atomic (t.reg a.toNat) n pa →
        (∃ u, exec (.atCas d a b z sp c) s = .next u ∧ PublishOnly s u t ∧
          u.thread? t.num = some (goesOn ((issuedBy s t).setReg d.toNat (word old)) 4) ∧
          (old = (t.reg d.toNat).toNat % 256 ^ n → u.mem = s.mem.write (cellsAt pa (leBytes n x))) ∧
          (old ≠ (t.reg d.toNat).toNat % 256 ^ n → u.mem = s.mem ∧ u.pubCount = s.pubCount)) ∧
        (∃ u, exec (.atSt d a b z sp c) s = .next u ∧ PublishOnly s u t ∧ u.mem = first.write (cellsAt pa (leBytes n x)) ∧
          u.thread? t.num = some (goesOn ({ issuedBy s t with buf := if t.region.isSome then t.buf else [] }.setReg d.toNat (word old')) 4))) ∧
      (Passes s t sp.toNat .read (t.reg a.toNat) n pa →
        ∃ u, exec (.atLd d a z sp c) s = .next u ∧ PublishOnly s u t ∧ u.mem = s.mem ∧ u.pubCount = s.pubCount ∧
          u.thread? t.num = some (goesOn ({ issuedBy s t with snap := s.pubCount }.setReg d.toNat (word old)) 4)))

/-- R133, R125: `phase.end`, and `phase.sync` once no engine command of the thread is outstanding, publish every
buffered store as one publication (nothing inside an idempotent region) and move the snapshot point to the end of the
order; until then `phase.sync` waits.
The model's choice: log 6. -/
def Obligations.PhaseBoundariesPublishAndMoveTheSnapshot : Prop :=
  ∀ (s : State) (t : Thread), Issues s t →
    let boundary (i : Instr) : Prop := ∃ u, exec i s = .next u ∧ PublishOnly s u t ∧
      u.mem = (if t.region.isSome then s.mem else s.mem.write (bufCells t.buf)) ∧
      u.pubCount = (if t.region.isSome ∨ t.buf = [] then s.pubCount else s.pubCount + 1) ∧
      u.thread? t.num = some (goesOn { issuedBy s t with
        buf := if t.region.isSome then t.buf else [], snap := u.pubCount, fetchSnap := u.pubCount } 4)
    boundary .phaseEnd ∧
    ((issuedIn s t).outstanding (issuedBy s t) = false → boundary .phaseSync) ∧
    ((issuedIn s t).outstanding (issuedBy s t) = true →
      ∃ u w, exec .phaseSync s = .next u ∧ u.thread? t.num = some { issuedBy s t with state := .waiting, wait := some w } ∧
        u.mem = s.mem ∧ u.pubCount = s.pubCount)

/-- R134, R125: `pub` outside a region publishes what it selects as one publication and keeps the rest, and does not move the
snapshot point; inside a region it is a no-op. R135: `fence.e` changes the thread alone, whose later commands carry the fence; an
engine performs no such command while one that the thread issued before is in a queue. R136: `pf` changes no register and no
memory. The model's choice: log 6. -/
def Obligations.PubFenceAndPrefetch : Prop :=
  (∀ (s : State) (thread : Nat) (c d : Cmd), d ∈ (s.tile (thread / 4)).cmds → d.name.thread = thread → d.id < c.fence →
    let held (u : Unit_) (i : Instr) : Prop := ((s.tile (thread / 4)).queue u).find? (fun x => decide (x.name.thread = thread)) = some c → exec i s = .next s
    held .mx (.mxCommandPerform (thread / 4) thread) ∧ held .sk (.skCommandPerform (thread / 4) thread) ∧ held .cp (.copyPerform (thread / 4) thread)) ∧
  ∀ (s : State) (t : Thread) (a b : BitVec 5), Issues s t →
    let lo := (t.reg a.toNat).toNat
    let len := (t.reg b.toNat).toNat
    let sel (e : BufByte) : Bool := decide (len = 0) || (e.isG && decide (lo ≤ e.va ∧ e.va < lo + len ∧ e.va < 2 ^ 56))
    (t.region.isSome = true → ∃ u, exec (.pub a b) s = .next u ∧ OnlyThread s u t (goesOn (issuedBy s t) 4)) ∧
    (t.region = none → ∃ u, exec (.pub a b) s = .next u ∧ PublishOnly s u t ∧ u.mem = s.mem.write (bufCells (t.buf.filter sel)) ∧
      u.pubCount = (if t.buf.filter sel = [] then s.pubCount else s.pubCount + 1) ∧
      u.thread? t.num = some (goesOn { issuedBy s t with buf := t.buf.filter fun e => !sel e } 4)) ∧
    (∃ u, exec .fenceE s = .next u ∧ OnlyThread s u t (goesOn { issuedBy s t with fence := s.nextCmd } 4)) ∧
    (∃ u, exec (.pf a) s = .next u ∧ AccessOnly s u t (goesOn (issuedBy s t) 4))

/-- R137: a wait on a word that holds at issue acquires and goes on; one that does not hold leaves the thread Waiting.
The word is read at the end of the publication order. -/
def Obligations.WaitsTestTheWordAtItsPointOfCoherence : Prop :=
  ∀ (s : State) (t : Thread) (d a : BitVec 5) (sp z : BitVec 2) (o : BitVec 11) (pa : Nat), Issues s t → sp ≠ 3 → z.toNat ≤ 1 →
    (addressOf t a o.toInt (sizeOf_ z)).toNat % sizeOf_ z = 0 →
    Passes s t sp.toNat .read (addressOf t a o.toInt (sizeOf_ z)) (sizeOf_ z) pa →
    let equal : Prop := s.readNat pa (sizeOf_ z) = (t.reg d.toNat).toNat % 256 ^ sizeOf_ z
    let done (i : Instr) : Prop := ∃ u, exec i s = .next u ∧ AccessOnly s u t (goesOn { issuedBy s t with snap := s.pubCount } 4)
    let waits (i : Instr) : Prop := ∃ u w, exec i s = .next u ∧ w.instr = i ∧ w.sat = false ∧ w.pa = pa ∧
      AccessOnly s u t { issuedBy s t with state := .waiting, wait := some w }
    (equal → done (.waitEq d a sp z o) ∧ waits (.waitNe d a sp z o)) ∧
    (¬ equal → done (.waitNe d a sp z o) ∧ waits (.waitEq d a sp z o))

/-- R139: `spill` pushes n scalars as one publication into the C-store below PTR, and `fill` pops them, where the range
is inside LIMIT and TOP, no column of it is allocated to the matrix unit, and no word to be read holds an error. A range that
passes LIMIT or TOP raises PROT, and one with an allocated column OVERLAP, with the new PTR for `spill` and PTR for `fill`. -/
def Obligations.SpillsPushAndFillsPop : Prop :=
  ∀ (s : State) (t : Thread) (d : BitVec 5) (n : BitVec 6), Issues s t → d.toNat + n.toNat ≤ 31 →
    let cnt := n.toNat + 1
    let ptr := wbits t.spill 0 18
    let base := 2 ^ 51 + 2 ^ 21 * (t.num / 4) + 0x180000
    let traps (i : Instr) (cause : Nat) (v : Int) : Prop :=
      exec i s = .next ((issuedIn s t).takeTrap (issuedBy s t) cause (BitVec.ofInt 64 v) t.pc t.seq t.pc)
    (ptr < 8 * cnt + wbits t.spill 18 18 → traps (.spill d n) 0x21 ((ptr : Int) - 8 * cnt)) ∧
    (8 * cnt + wbits t.spill 18 18 ≤ ptr → (issuedIn s t).rangeHeld (t.num / 4) (ptr - 8 * cnt) ptr = true →
      traps (.spill d n) 0x05 ((ptr : Int) - 8 * cnt)) ∧
    (wbits t.spill 36 18 < ptr + 8 * cnt → traps (.fill d n) 0x21 ptr) ∧
    (ptr + 8 * cnt ≤ wbits t.spill 36 18 → (issuedIn s t).rangeHeld (t.num / 4) ptr (ptr + 8 * cnt) = true → traps (.fill d n) 0x05 ptr) ∧
    (8 * cnt + wbits t.spill 18 18 ≤ ptr → (issuedIn s t).rangeHeld (t.num / 4) (ptr - 8 * cnt) ptr = false →
      ∃ u, exec (.spill d n) s = .next u ∧ PublishOnly s u t ∧ u.pubCount = s.pubCount + 1 ∧
        u.mem = s.mem.write (cellsAt (base + (ptr - 8 * cnt)) ((List.range cnt).flatMap fun k => leBytes 8 (t.reg (d.toNat + k)).toNat)) ∧
        u.thread? t.num = some (goesOn { issuedBy s t with
          spill := word (t.spill.toNat / 2 ^ 18 * 2 ^ 18 + (ptr - 8 * cnt)) } 4)) ∧
    (ptr + 8 * cnt ≤ wbits t.spill 36 18 → (issuedIn s t).rangeHeld (t.num / 4) ptr (ptr + 8 * cnt) = false →
      (∀ k < cnt, s.bad (base + ptr + 8 * k) 8 = false) → ∃ u, exec (.fill d n) s = .next u ∧
        OnlyThread s u t (goesOn ({ issuedBy s t with spill := word (t.spill.toNat / 2 ^ 18 * 2 ^ 18 + (ptr + 8 * cnt)) }.setGroup d.toNat
          ((List.range cnt).map fun k => word (s.readNat (base + ptr + 8 * k) 8))) 4))

/-! ### Traps, threads and system instructions -/

/-- R357: a trap raised at level U with HND = 0 and a vector set is entered on the same thread at level S: the status,
cause, value, name and resume address are saved, LVL becomes 1 and HND 1, PRIO and ACCT stay, and PC is the vector. Its
registers and predicates stay, and no byte of memory changes.
R358, with R362 to R364: any other trap, of a thread without an open region, stops the thread with its resume address
as program counter and its buffered stores published; a record of KIND 1 with the cause, the value and the name of the
trapping instruction is owed under the partition's next identifier. Where the partition has no record ring the record waits. R284,
R308, R315: while the thread has an accepted engine command, the stop waits, and the thread is Waiting. -/
def Obligations.TrapsEnterTheHandlerOrStopTheThread : Prop :=
  (
    ∀ (s : State) (t : Thread) (cause : Nat) (value tpc rpc : Word) (tseq : Half), t.level = 0 → t.hnd = false → (s.part t.part).vec ≠ 0 →
      let u := s.takeTrap t cause value tpc tseq rpc
      u.thread? t.num = some (enteredAtS t (s.part t.part).vec cause value tpc tseq rpc) ∧
      (∀ n, n ≠ t.num → u.thread? n = s.thread? n) ∧ u.mem = s.mem ∧ u.parts = s.parts ∧ u.insts = s.insts ∧ u.pages = s.pages) ∧
  (
    ∀ (s : State) (t : Thread) (cause : Nat) (value tpc rpc : Word) (tseq : Half),
      t.level ≠ 0 ∨ t.hnd = true ∨ (s.part t.part).vec = 0 → t.region = none → (∀ w, t.wait = some w → w.instr ≠ .phaseSync) →
      let u := s.takeTrap t cause value tpc tseq rpc
      let id := (s.part t.part).recNext
      ((∀ c ∈ (s.tile (t.num / 4)).cmds, c.name.thread ≠ t.num) →
        (u.thread? t.num = some { t with state := .stopped, wait := none, waitCount := 0, pc := rpc, buf := [], recordId := id, held := none
                                         copying := none, stopDue := none }) ∧
        (u.part t.part).owed = (id, .thread t.num) :: (s.part t.part).owed ∧
        ((s.part t.part).recRing = 0 → u.mem = s.mem.write (bufCells t.buf) ∧
          ∃ r : Record, (u.part t.part).backlog = (s.part t.part).backlog ++ [r] ∧ r.kind = 1 ∧ r.cause = cause ∧ r.value = value ∧
            r.name.pc = tpc ∧ r.name.seq = tseq ∧ r.name.thread = t.num ∧ r.id = id ∧ r.time = s.dev.time)) ∧
      ((∃ c ∈ (s.tile (t.num / 4)).cmds, c.name.thread = t.num) →
        u.thread? t.num = some { t with state := .waiting, wait := none, waitCount := 0, pc := rpc, stopDue := some ⟨cause, tpc, tseq, value⟩ } ∧
        u.mem = s.mem ∧ u.parts = s.parts))

/-- R360, R391, R355: `trap` and `dbg.brk` are complete, raise SWTRAP and BREAK with their code, and resume at the next
instruction.
R361: `tret` from a handler with a valid saved status and an aligned resume address restores both; outside a handler
it raises ILL; a saved status that breaks its rule, one of a higher level, and a misaligned resume address are taken at M, with
BADSTATUS, PRIV and ALIGN. -/
def Obligations.SoftwareTrapsAndTheirReturn : Prop :=
  (
    ∀ (s : State) (t : Thread) (c : BitVec 6),
      (encodeNat (.trap c) = [0xF8000000 + c.toNat] ∧ encodeNat (.dbgBrk c) = [0xF8100000 + c.toNat] ∧ encodeNat .tret = [0xF8010000]) ∧
      (Issues s t →
      exec (.trap c) s = .next ((issuedIn s t).takeTrap (issuedBy s t) 0x08 (word c.toNat) t.pc t.seq (t.pc + 4)) ∧
      exec (.dbgBrk c) s = .next ((issuedIn s t).takeTrap (issuedBy s t) 0x09 (word c.toNat) t.pc t.seq (t.pc + 4)))) ∧
  (
    ∀ (s : State) (t : Thread), Issues s t →
      let v := t.tsw.toNat
      let acct := v / 32 % 128
      let valid : Prop := v < 2 ^ 12 ∧ v % 4 ≠ 3 ∧ v / 4 % 2 = 0 ∧ (acct = 64 ∨ acct ∈ (s.part t.part).functions)
      (t.hnd = true → valid → v % 4 ≤ t.level → t.rpc.toNat % 4 = 0 →
        ∃ u, exec .tret s = .next u ∧ OnlyThread s u t { issuedBy s t with sw := t.tsw, pc := t.rpc, afterTret := true }) ∧
      (t.hnd = false → exec .tret s = .next ((issuedIn s t).takeTrap (issuedBy s t) 0x01 0xF8010000 t.pc t.seq t.pc)) ∧
      (t.hnd = true → ¬ valid → exec .tret s = .next ((issuedIn s t).stopWithRecord (issuedBy s t) 0x04 t.tsw t.pc t.seq t.pc)) ∧
      (t.hnd = true → valid → t.level < v % 4 → exec .tret s = .next ((issuedIn s t).stopWithRecord (issuedBy s t) 0x02 t.tsw t.pc t.seq t.pc)) ∧
      (t.hnd = true → valid → v % 4 ≤ t.level → t.rpc.toNat % 4 ≠ 0 →
        exec .tret s = .next ((issuedIn s t).stopWithRecord (issuedBy s t) 0x03 t.rpc t.pc t.seq t.pc)))

/-- R29: a control instruction whose operands its form does not allow raises ILL with its first word (compares into no predicate,
fields past bit 63, pairs of `s31`, stores to `.w`). R390, R23: where the words of a Ready thread's next instruction can be
fetched, and breakpoint register 0 of its tile is enabled for it and matches its program counter and, where it tests one, the
sequence number that the instruction would have, BREAK is raised with 0x40 and that number before the instruction issues:
nothing but the fetch is charged and the thread is else as it was. -/
def Obligations.IllFormedAndBreakpointInstructionsDoNotIssue : Prop :=
  (
    ∀ (s : State) (t : Thread) (d a b : BitVec 5) (w p : BitVec 6) (o : BitVec 11) (o' : BitVec 13) (sp : BitVec 2), Issues s t →
      let ill (i : Instr) : Prop := exec i s = .next ((issuedIn s t).takeTrap (issuedBy s t) 0x01 (word (firstWord i).toNat) t.pc t.seq t.pc)
      (d.toNat > 7 → ∀ f ∈ compareForms, ill (f.1 d a b)) ∧
      (p.toNat + w.toNat + 1 > 64 → ill (.bfx d a w p) ∧ ill (.bfi d a w p)) ∧
      (ill (.ldp 31 a sp o') ∧ ill (.stp 31 a sp o')) ∧
      (∀ f ∈ storeForms, ill (f.1 d a 3 o)) ∧ ill (.stp d a 3 o')) ∧
  (
    ∀ (s s1 : State) (t : Thread) (n : Nat) (w x : Half), s.thread? n = some t → t.state = .ready → t.pending = [] → t.afterTret = false →
      s.fetchPair (s.begin_ t) = (s1, .ok (w, x)) →
      let b := ((s.tile (t.num / 4)).brk.toArray.getD 0 0).toNat
      let command : Bool := match decodeControl w x with
        | .ok i => decide (0x28 ≤ (firstWord i).toNat / 2 ^ 26 ∧ (firstWord i).toNat / 2 ^ 26 ≤ 0x39)
        | .error _ => decide (0x28 ≤ w.toNat / 2 ^ 26 ∧ w.toNat / 2 ^ 26 ≤ 0x39)
      let seq := if command then t.seq + 1 else t.seq
      b % 2 = 1 → b / 2 ^ (2 + t.num % 4) % 2 = 1 → b / 256 = t.pc.toNat % 2 ^ 56 →
      (b / 2 % 2 = 1 → ((s.tile (t.num / 4)).brkSeq.toArray.getD 0 0).toNat % 2 ^ 32 = seq.toNat) →
      exec (.breakpointMatch n) s = .next (s1.takeTrap (s.begin_ t) 0x09 0x40 t.pc seq t.pc))

/-- R105, R106: outside a region and a replay, `thr.spawn` with an aligned entry takes the lowest Free slot of its tile,
starts a thread there with the spawner's priority, level, account and binding and `s1` = s[b], and writes the slot's
number; with no Free slot it writes all ones and starts nothing. In a region it raises BADSTATUS, on a misaligned entry ALIGN,
with s[a].
R109 to R111: `thr.yield` changes no register and goes on; `bar` in a closed generation whose only live member is the issuing
thread completes at once; while a live member of its mask has not arrived, the thread waits and the generation stays open
with it arrived. In an open generation another mask raises BADSTATUS with s[a]; with the generation's own mask the thread arrives: it
waits while a required thread is missing, and where it is the last one the generation closes and every thread that waits at `bar`
goes on.
R108, R111: `thr.exit` outside a region, with no command outstanding and no expectation ARMED, publishes the buffered
stores and frees the slot; where it was the last one missing, its tile's generation closes and the threads that wait for it go on, and
else the generation stays open without it. With a command outstanding it waits; with an expectation ARMED it raises BADSTATUS with
0x10 + the lowest index, and inside a region BADSTATUS with value 0. -/
def Obligations.ThreadsStartYieldMeetAndEnd : Prop :=
  (
    ∀ (s : State) (t : Thread) (d a b : BitVec 5), Issues s t → t.region = none → (s.part t.part).replay = [] → (t.reg a.toNat).toNat % 4 = 0 →
      let base := 4 * (t.num / 4)
      (∀ k, k < 4 → base + k ≠ t.num → (∀ j, j < k → (s.thread? (base + j)).isSome ∨ base + j = t.num) → s.thread? (base + k) = none →
        ∃ u n, exec (.thrSpawn d a b) s = .next u ∧ PublishOnly { s with threads := u.threads } u t ∧ u.mem = s.mem ∧
          (∀ m, m ≠ t.num → m ≠ base + k → u.thread? m = s.thread? m) ∧
          u.thread? t.num = some (goesOn ((issuedBy s t).setReg d.toNat (word (base + k))) 4) ∧ u.thread? (base + k) = some n ∧
          n.pc = t.reg a.toNat ∧ n.reg 1 = t.reg b.toNat ∧ (∀ r, r ≠ 1 → n.reg r = 0) ∧ n.preds = 1 ∧ n.state = .ready ∧
          n.level = t.level ∧ n.prio = t.prio ∧ n.acct = t.acct ∧ n.hnd = false ∧ n.part = t.part ∧ n.inst = t.inst ∧ n.actor = t.actor ∧
          n.seq = 0 ∧ n.handles = Vector.replicate 16 {} ∧ n.begun = false ∧ n.spill = 0) ∧
      ((∀ k, k < 4 → (s.thread? (base + k)).isSome ∨ base + k = t.num) →
        ∃ u, exec (.thrSpawn d a b) s = .next u ∧ PublishOnly s u t ∧ u.mem = s.mem ∧
          u.thread? t.num = some (goesOn ((issuedBy s t).setReg d.toNat allOnes) 4))) ∧
  (
    ∀ (s : State) (t : Thread) (d a b : BitVec 5), Issues s t →
      let traps (cause : Nat) : Prop := exec (.thrSpawn d a b) s =
        .next ((issuedIn s t).takeTrap (issuedBy s t) cause (t.reg a.toNat) t.pc t.seq t.pc)
      (t.region ≠ none → traps 0x04) ∧ (t.region = none → (t.reg a.toNat).toNat % 4 ≠ 0 → traps 0x03)) ∧
  (
    (
      ∀ (s : State) (t : Thread), Issues s t → ∃ u, exec .thrYield s = .next u ∧ OnlyThread s u t (goesOn (issuedBy s t) 4)) ∧
    (
      ∀ (s : State) (t : Thread) (a : BitVec 5), Issues s t → (s.tile (t.num / 4)).barOpen = false →
        let mask (k : Nat) : Bool := (t.reg a.toNat).getLsbD k || decide (k = t.num % 4)
        let live (k : Nat) : Bool := (s.thread? (4 * (t.num / 4) + k)).isSome
        ((∀ k, k < 4 → k ≠ t.num % 4 → (mask k && live k) = false) →
          ∃ u, exec (.bar a) s = .next u ∧ u.thread? t.num = some (goesOn (issuedBy s t) 4) ∧ (u.tile (t.num / 4)).barOpen = false ∧ u.mem = s.mem) ∧
        ((∃ k, k < 4 ∧ k ≠ t.num % 4 ∧ (mask k && live k) = true) →
          ∃ u w, exec (.bar a) s = .next u ∧ u.thread? t.num = some { issuedBy s t with state := .waiting, wait := some w } ∧
            (u.tile (t.num / 4)).barOpen = true ∧ (u.tile (t.num / 4)).barArr = 2 ^ (t.num % 4) ∧ u.mem = s.mem)) ∧
    (
      ∀ (s : State) (t : Thread) (a : BitVec 5), Issues s t → (s.tile (t.num / 4)).barOpen = true →
        let b := s.tile (t.num / 4)
        let mask := (t.reg a.toNat).toNat % 16 ||| 2 ^ (t.num % 4)
        let missing := ∃ k, k < 4 ∧ k ≠ t.num % 4 ∧ b.barReq.testBit k = true ∧ b.barArr.testBit k = false
        (mask ≠ b.barMask → exec (.bar a) s = .next ((issuedIn s t).takeTrap (issuedBy s t) 0x04 (t.reg a.toNat) t.pc t.seq t.pc)) ∧
        (mask = b.barMask → missing →
          ∃ u w, exec (.bar a) s = .next u ∧ u.thread? t.num = some { issuedBy s t with state := .waiting, wait := some w } ∧ u.mem = s.mem ∧
            u.tile (t.num / 4) = { b with barArr := b.barArr ||| 2 ^ (t.num % 4) } ∧ ∀ n, n ≠ t.num → u.thread? n = s.thread? n) ∧
        (mask = b.barMask → ¬missing →
          ∃ u, exec (.bar a) s = .next u ∧ u.thread? t.num = some (goesOn (issuedBy s t) 4) ∧ u.mem = s.mem ∧
            u.tile (t.num / 4) = { b with barOpen := false, barMask := 0, barReq := 0, barArr := 0 } ∧
            ∀ n v, n ≠ t.num → s.thread? n = some v → v.num = n → u.thread? n = some (if AtBar (t.num / 4) v then goesOn v 4 else v)))) ∧
  (
    ∀ (s : State) (t : Thread), Issues s t →
      let b := s.tile (t.num / 4)
      let armed (n : Nat) : Bool := (t.expects.toArray.getD n {}).armed
      let missing := ∃ k, k < 4 ∧ k ≠ t.num % 4 ∧ b.barReq.testBit k = true ∧ b.barArr.testBit k = false
      (t.region = none → (issuedIn s t).outstanding (issuedBy s t) = false → (∀ n, n < 4 → armed n = false) →
        ∃ u, exec .thrExit s = .next u ∧ u.thread? t.num = none ∧ u.mem = s.mem.write (bufCells t.buf) ∧
          (b.barOpen = true → missing → (u.tile (t.num / 4)).barOpen = true ∧
            ∀ k, k < 4 → (u.tile (t.num / 4)).barReq.testBit k = (decide (k ≠ t.num % 4) && b.barReq.testBit k)) ∧
          (b.barOpen = true → ¬missing → (u.tile (t.num / 4)).barOpen = false ∧
            ∀ n v, n ≠ t.num → s.thread? n = some v → v.num = n → AtBar (t.num / 4) v → u.thread? n = some (goesOn v 4))) ∧
      (t.region = none → (issuedIn s t).outstanding (issuedBy s t) = true →
        ∃ u w, exec .thrExit s = .next u ∧ OnlyThread s u t { issuedBy s t with state := .waiting, wait := some w } ∧ w.instr = .thrExit) ∧
      (∀ n, t.region = none → (issuedIn s t).outstanding (issuedBy s t) = false → n < 4 → armed n = true → (∀ k, k < n → armed k = false) →
        exec .thrExit s = .next ((issuedIn s t).takeTrap (issuedBy s t) 0x04 (word (0x10 + n)) t.pc t.seq t.pc)) ∧
      (t.region ≠ none → exec .thrExit s = .next ((issuedIn s t).takeTrap (issuedBy s t) 0x04 0 t.pc t.seq t.pc)))

/-- R380, R381, R356, R138, R181, R182, R323, R387, R388: `csr.rd` of these registers (the thread's own, its tile's region, matrix, Skink and debug
registers, its partition's, the hash masks) at or above their level writes their value, below it raises PRIV, and a
number that no level may read raises ILL; a read of `DB_TRCDATA` gives the selected word, 0 while the trace runs, and moves the
selection on. `csr.wr` of a trap register at level S or above, and of `TC_SPILL` at any level,
stores its RW fields, and below level S the trap registers raise PRIV. So do the registers of the tile: at level S they
store their RW fields, and `RG_FLAGS` and `RG_RND` those of the resident page; a mode above 4 leaves `RG_RND`. A hash mask is
written at level M alone, into the device configuration, and the masks in force stand until a device reset. A register that no level
writes raises ILL.
The model's choice: log 42, 119. -/
def Obligations.ControlRegistersReadAndWriteAsTheirTableSays : Prop :=
  (
    ∀ (s : State) (t : Thread) (d : BitVec 5), Issues s t →
      (∀ f ∈ csrForms, f.2.1 ≤ t.level →
        ∃ u, exec (.csrRd d (BitVec.ofNat 11 f.1)) s = .next u ∧
          AccessOnly s u t (goesOn ((issuedBy s t).setReg d.toNat (f.2.2 s t)) 4)) ∧
      (∀ f ∈ csrForms, t.level < f.2.1 → exec (.csrRd d (BitVec.ofNat 11 f.1)) s =
        .next ((issuedIn s t).takeTrap (issuedBy s t) 0x02 (word (firstWord (.csrRd d (BitVec.ofNat 11 f.1))).toNat) t.pc t.seq t.pc)) ∧
      (∀ (k : Nat) (r : TraceRec), 1 ≤ t.level → k < 8192 → (s.tile (t.num / 4)).trcSel = word (k / 4 + k % 4 * 2 ^ 11) →
        (s.tile (t.num / 4)).trace[k / 4]? = some r →
        let b := s.tile (t.num / 4)
        let v := if b.trcCtl.getLsbD 0 = true ∧ b.trcFrozen = false then 0 else [r.w0, r.w1, r.w2, r.w3].getD (k % 4) 0
        ∃ u, exec (.csrRd d 0x0E3) s = .next u ∧ u = { s with
          threads := tabSet s.threads t.num (goesOn ((issuedBy s t).setReg d.toNat v) 4)
          tiles := tabSet s.tiles (t.num / 4) { b with trcSel := word ((k + 1) % 8192 / 4 + (k + 1) % 4 * 2 ^ 11) }
          meters := u.meters, accounts := u.accounts, pubBy := u.pubBy }) ∧
      (∀ n ∈ [0x001, 0x006, 0x02A, 0x02F, 0x052, 0x090, 0x0A3, 0x0F1, 0x0FF, 0x106], exec (.csrRd d (BitVec.ofNat 11 n)) s =
        .next ((issuedIn s t).takeTrap (issuedBy s t) 0x01 (word (firstWord (.csrRd d (BitVec.ofNat 11 n))).toNat) t.pc t.seq t.pc))) ∧
  (
    ∀ (s : State) (t : Thread) (a : BitVec 5), Issues s t →
      (∀ f ∈ csrStores, 1 ≤ t.level ∨ f.1 = 0x028 →
        ∃ u, exec (.csrWr a (BitVec.ofNat 11 f.1)) s = .next u ∧ AccessOnly s u t (goesOn (f.2 (issuedBy s t) (t.reg a.toNat)) 4)) ∧
      (∀ f ∈ csrStores, t.level = 0 ∧ f.1 ≠ 0x028 → exec (.csrWr a (BitVec.ofNat 11 f.1)) s =
        .next ((issuedIn s t).takeTrap (issuedBy s t) 0x02 (word (firstWord (.csrWr a (BitVec.ofNat 11 f.1))).toNat) t.pc t.seq t.pc))) ∧
  (
    ∀ (s : State) (t : Thread) (a : BitVec 5), Issues s t →
      let v := t.reg a.toNat
      let n := t.num / 4
      let i (r : Nat) : Instr := .csrWr a (BitVec.ofNat 11 r)
      let after := tabSet s.threads t.num (goesOn (issuedBy s t) 4)
      let privileged (r : Nat) : Prop := exec (i r) s =
        .next ((issuedIn s t).takeTrap (issuedBy s t) 0x02 (word (firstWord (i r)).toNat) t.pc t.seq t.pc)
      (∀ f ∈ tileStores, (t.level = 0 → privileged f.1) ∧ (1 ≤ t.level → ∃ u, exec (i f.1) s = .next u ∧ u = { s with
        threads := after, tiles := tabSet s.tiles n (f.2 (s.tile n) v), meters := u.meters, accounts := u.accounts, pubBy := u.pubBy })) ∧
      (∀ r ∈ [0x040, 0x041],
        let flags (old : BitVec 5) : BitVec 5 := if r = 0x040 then v.setWidth 5 else old
        let mode (old : Nat) : Nat := if r = 0x041 ∧ v.toNat % 8 ≤ 4 then v.toNat % 8 else old
        (t.level = 0 → privileged r) ∧
        (∀ e, 1 ≤ t.level → s.pages.find? (fun e => decide (e.2.region = some n)) = some e → ∃ u, exec (i r) s = .next u ∧ u = { s with
          threads := after, pages := tabSet s.pages e.2.id { e.2 with st := { e.2.st with flags := flags e.2.st.flags, rnd := mode e.2.st.rnd } }
          meters := u.meters, accounts := u.accounts, pubBy := u.pubBy }) ∧
        (1 ≤ t.level → s.pages.find? (fun e => decide (e.2.region = some n)) = none → ∃ u, exec (i r) s = .next u ∧ u = { s with
          threads := after, tiles := tabSet s.tiles n { s.tile n with rgFlags := flags (s.tile n).rgFlags, rgRnd := mode (s.tile n).rgRnd }
          meters := u.meters, accounts := u.accounts, pubBy := u.pubBy })) ∧
      (∀ k, k < 9 → (t.level < 2 → privileged (0x0B0 + k)) ∧ (2 ≤ t.level → ∃ u, exec (i (0x0B0 + k)) s = .next u ∧ u = { s with
        threads := after, meters := u.meters, accounts := u.accounts, fresh := u.fresh, pubBy := u.pubBy
        dev := { s.dev with hashNext := some ((s.dev.hashNext.getD (s.dev.hash.toList.map BitVec.toNat)).set k (v.toNat / 2 ^ 8 % 2 ^ 31 * 2 ^ 8)) } })) ∧
      (∀ r ∈ [0x010, 0x020, 0x0E3, 0x0F1, 0x100], exec (i r) s =
        .next ((issuedIn s t).takeTrap (issuedBy s t) 0x01 (word (firstWord (i r)).toNat) t.pc t.seq t.pc)))

/-- R382 to R384, R111, R359: `time.rd` outside a replay writes device time; `idle` waits; IDLE_TIMEOUT releases an `idle` once 1 ms
of device time has passed since its issue, and not before. R144, R359, R380, R383:
TLB_INVALIDATE of everything leaves no cached translation of the partition and every other one; ASYNC_TRAP_DELIVERY enters
the oldest pending trap of a thread outside a handler; REGISTER_WRITE stores a trap register of a thread at level S;
TIME_SLEW stores a rate offset saturated to 500,000; TIME_STEP moves device time forward alone where nothing can be due: no
queue is mapped, no partition has a checkpoint period, no thread waits at `idle` and no interval boundary is passed. -/
def Obligations.TimeAndThreadEventsHaveTheirEffect : Prop :=
  (
    (∀ (s : State) (t : Thread) (d : BitVec 5), Issues s t →
      ((s.part t.part).replay = [] → ∃ u, exec (.timeRd d) s = .next u ∧ PublishOnly s u t ∧ u.mem = s.mem ∧
        u.thread? t.num = some (goesOn ((issuedBy s t).setReg d.toNat (word s.dev.time)) 4)) ∧
      (∃ u w, exec .idle s = .next u ∧ OnlyThread s u t { issuedBy s t with state := .waiting, wait := some w } ∧ w.instr = .idle ∧
        w.since = s.dev.time)) ∧
    (∀ (s : State) (t : Thread) (n : Nat) (w : Wait), s.thread? n = some t → t.state = .waiting → t.wait = some w → w.instr = .idle →
      exec (.idleTimeout n) s =
        .next (if w.since + 1000000 ≤ s.dev.time then { s with threads := tabSet s.threads t.num (goesOn t 4) } else s))) ∧
  (
    (∀ (s : State) (part : Nat) (v : Word), v.toNat % 4 = 3 →
      exec (.tlbInvalidate part v) s = .next { s with tlb := s.tlb.filter fun e => decide (e.part ≠ part) }) ∧
    (∀ (s : State) (t : Thread) (n : Nat) (p : Pending) (rest : List Pending), s.thread? n = some t → t.pending = p :: rest → t.hnd = false →
      t.state = .ready → t.wait = none → t.stopDue = none →
      exec (.asyncTrapDelivery n) s = .next (s.takeTrap { t with pending := rest } p.cause p.tval p.tpc p.tseq t.pc)) ∧
    (∀ (s : State) (t : Thread) (n : Nat) (v : Word), s.thread? n = some t → n ≠ 768 → 1 ≤ t.level →
      ∀ f ∈ csrStores, exec (.registerWrite n (BitVec.ofNat 11 f.1) v) s = .next { s with threads := tabSet s.threads t.num (f.2 t v) }) ∧
    (∀ (s : State) (v : Half), ∃ u, exec (.timeSlew v) s = .next u ∧ u = { s with dev := { s.dev with slew := u.dev.slew } } ∧
      u.dev.slew.toInt = max (-500000) (min 500000 v.toInt)) ∧
    (∀ (s : State) (ns : Nat), s.queues = [] → ns < 2 ^ 31 → (∀ e ∈ s.parts, e.2.ckPeriod.toNat % 2 ^ 24 = 0) →
      (∀ e ∈ s.threads, ∀ w, e.2.wait = some w → w.instr ≠ .idle) → (s.dev.time + ns) % 2 ^ 64 / 1000000 ≤ s.dev.interval →
      exec (.timeStep ns) s = .next { s with dev := { s.dev with time := (s.dev.time + ns) % 2 ^ 64 } }))

/-- R362: with room in the record ring, RECORD_BACKLOG_WRITE writes a single waiting record into the slot of TAIL and
TAIL + 1, as one publication, and the backlog is empty. -/
def Obligations.BacklogRecordsAreWrittenWhenThereIsRoom : Prop :=
  ∀ (s : State) (part : Nat) (r : Record) (base pa pr : Nat) (s1 s2 : State), (s.part part).backlog = [r] →
    (s.part part).recRing = word (base + 4) → base % 4096 = 0 → base ≠ 0 → base < 2 ^ 56 →
    s.translate 0 part 1 false .write base 16 = (s1, .ok pa) → s.bad pa 16 = false →
    s.readNat pa 8 - s.readNat (pa + 8) 8 < 16 →
    s1.translate 0 part 1 false .write (base + 128 * (1 + s.readNat pa 8 % 16)) 64 = (s2, .ok pr) →
    ∃ u, exec (.recordBacklogWrite part) s = .next u ∧ (u.part part).backlog = [] ∧ u.pubCount = s.pubCount + 1 ∧
      u.mem = s.mem.write (cellsAt pr (recordBytes r) ++ cellsAt pa (leBytes 8 (s.readNat pa 8 + 1)))

/-! ### Rings -/

/-- R192, R189: outside a region, `ring.def` of a handle that nothing holds on an aligned descriptor that it can read and that keeps
R189 binds the handle to it, where its control block can be read, with L as LOCAL stands and P = 0. It raises BADSTATUS in a
region and for a handle that is held, ALIGN for a misaligned descriptor, and SHAPE for one that breaks R189, with s[a]. R195:
`ring.slot` writes the A-store offset of a slot, or its address under PVA at a producer end with a tile peer; there a PVA of 0
raises BADSTATUS. R196: `ring.stat` writes AVAIL, PEND, HEAD, BOUND, ROLE, PORT, REPL and BAD; an unbound handle gives 0.
The model's choice: the value of that BADSTATUS is free (log 7). -/
def Obligations.RingHandlesAreBoundAndReported : Prop :=
  (
    ∀ (s s1 : State) (t : Thread) (h a : BitVec 5) (bs : List Byte), Issues s t → h.toNat ≤ 15 →
      let traps (u : State) (cause : Nat) : Prop := exec (.ringDef h a) s = .next (u.takeTrap (issuedBy s t) cause (t.reg a.toNat) t.pc t.seq t.pc)
      (t.region ≠ none ∨ HandleHeld s t h.toNat → traps (ringIn s t) 0x04) ∧
      (t.region = none → ¬HandleHeld s t h.toNat → (t.reg a.toNat).toNat % 32 ≠ 0 → traps (ringIn s t) 0x03) ∧
      (t.region = none → ¬HandleHeld s t h.toNat → (t.reg a.toNat).toNat % 32 = 0 →
      (ringIn s t).loadGlobal (issuedBy s t) (t.reg a.toNat).toNat 32 = (s1, .ok bs) →
      let w (k : Nat) : Word := word (leNat ((bs.drop (8 * k)).take 8))
      let hd : Handle := { bound := true, d0 := w 0, d1 := w 1, d2 := w 2, d3 := w 3 }
      let keeps := KeepsR189 s (t.num / 4) (w 0).toNat (w 1).toNat (w 2).toNat (w 3).toNat
      (keeps → BlockReads s (t.num / 4) hd → ∃ u, exec (.ringDef h a) s = .next u ∧
        AccessOnly s u t (goesOn ((issuedBy s t).setHandle h.toNat
          { hd with l := word (s.readNat (aStore (t.num / 4) + hd.lrcb + 8) 8), p := 0 }) 4)) ∧
      (¬keeps → traps s1 0x06))) ∧
  (
    ∀ (s : State) (t : Thread) (d h b : BitVec 5), Issues s t → h.toNat ≤ 15 →
      let hd := t.handle h.toNat
      let off := hd.base + ((hd.l.toNat + hd.p) % hd.depth + (t.reg b.toNat).toNat) % hd.depth * (64 * hd.slot64)
      hd.bound = true → hd.nrep = 0 → (t.reg b.toNat).toNat < hd.depth →
      (hd.role = 0 ∨ hd.peerKind ≠ 0 → Writes s t (.ringSlot d h b) d (word off)) ∧
      (hd.role = 1 → hd.peerKind = 0 →
        (hd.pva ≠ 0 → Writes s t (.ringSlot d h b) d (word (hd.pva + off))) ∧
        (hd.pva = 0 → RingTraps s t (.ringSlot d h b) 0x04))) ∧
  (
    ∀ (s : State) (t : Thread) (d h : BitVec 5), Issues s t → h.toNat ≤ 15 →
      let hd := t.handle h.toNat
      (hd.bound = false → Writes s t (.ringStat d h) d 0) ∧
      (hd.bound = true → 1 ≤ hd.depth → BlockReads s (t.num / 4) hd → ∃ v : Word, Writes s t (.ringStat d h) d v ∧
        (∀ av : Nat, availNow s (t.num / 4) hd = av → av ≤ hd.depth → CountersKept s (t.num / 4) hd → v.toNat % 2 ^ 16 = av ∧ v.getLsbD 52 = false) ∧
        (availNow s (t.num / 4) hd < 0 ∨ hd.depth < availNow s (t.num / 4) hd ∨ ¬ CountersKept s (t.num / 4) hd → v.toNat % 2 ^ 16 = 0 ∧ v.getLsbD 52 = true) ∧
        v.toNat / 2 ^ 16 % 2 ^ 16 = hd.p % 2 ^ 16 ∧ v.toNat / 2 ^ 32 % 2 ^ 16 = (hd.l.toNat + hd.p) % hd.depth % 2 ^ 16 ∧ v.getLsbD 48 = true ∧
        v.getLsbD 49 = decide (hd.role = 1) ∧
        v.getLsbD 50 = ((s.pagesOf t).any fun p => p.region.isSome && (List.range (pgPorts p.image)).any fun e => decide (portHandle p.image e = h.toNat)) ∧
        v.getLsbD 51 = decide (hd.nrep ≠ 0)))

/-- R193, R190: `ring.wait` and `ring.room` complete when Avail is at least s[a], `ring.wait` as an acquire; until then the
thread waits. Neither takes a slot.
R191: an unbound handle, a role that the form does not allow, and a replicate ring for `ring.slot` and `ring.post` raise
BADSTATUS; a count of DEPTH or more, for `ring.wait` and `ring.room` of more than DEPTH, raises SHAPE.
The model's choice: the values of these traps are free (log 7). -/
def Obligations.RingWaitsUntilAvailable : Prop :=
  (∀ (s : State) (t : Thread) (d h a : BitVec 5), Issues s t → h.toNat ≤ 15 →
    let hd := t.handle h.toNat
    let n := (t.reg a.toNat).toNat
    (hd.bound = false ∨ hd.role ≠ 0 → RingTraps s t (.ringWait h a) 0x04 ∧ RingTraps s t (.ringAdv h a) 0x04) ∧
    (hd.bound = false ∨ hd.role ≠ 1 → RingTraps s t (.ringRoom h a) 0x04 ∧ RingTraps s t (.ringPost h a) 0x04) ∧
    (hd.bound = false ∨ hd.nrep ≠ 0 → RingTraps s t (.ringSlot d h a) 0x04) ∧
    (hd.bound = true → hd.role = 1 → hd.nrep ≠ 0 → RingTraps s t (.ringPost h a) 0x04) ∧
    (hd.bound = true → 1 ≤ hd.depth →
      (hd.nrep = 0 → hd.depth ≤ n → RingTraps s t (.ringSlot d h a) 0x06) ∧
      (hd.role = 0 → (hd.depth < n → RingTraps s t (.ringWait h a) 0x06) ∧ (hd.depth ≤ n → RingTraps s t (.ringAdv h a) 0x06)) ∧
      (hd.role = 1 → (hd.depth < n → RingTraps s t (.ringRoom h a) 0x06) ∧
        (hd.nrep = 0 → hd.depth ≤ n → RingTraps s t (.ringPost h a) 0x06)))) ∧
  ∀ (s : State) (t : Thread) (h a : BitVec 5) (av : Nat), Issues s t → (t.reg a.toNat).toNat ≤ (t.handle h.toNat).depth →
    let n := (t.reg a.toNat).toNat
    let waits (i : Instr) : Prop := ∃ u w, exec i s = .next u ∧ OnlyThread s u t { issuedBy s t with state := .waiting, wait := some w }
    (Standing s t h 0 av →
      (n ≤ av → ∃ u, exec (.ringWait h a) s = .next u ∧ OnlyThread s u t (goesOn { issuedBy s t with snap := s.pubCount } 4)) ∧
      (av < n → waits (.ringWait h a))) ∧
    (Standing s t h 1 av →
      (n ≤ av → ∃ u, exec (.ringRoom h a) s = .next u ∧ OnlyThread s u t (goesOn (issuedBy s t) 4)) ∧
      (av < n → waits (.ringRoom h a)))

/-- R194, R124: outside a region `ring.adv` and `ring.post` of no more slots than Avail, and fewer than DEPTH, write the
counters, `ring.post` with the thread's buffered stores that fall in the posted slots, as one publication.
R194, R125: inside a region whose handle is not monitored, `ring.adv` and `ring.post` raise P and record the take for
the region's end; no byte of memory changes.
R194, R370: more slots than Avail raise SHAPE with the count; slots that reach a tile or a link which is not the partition's
raise PROT.
The model's choice: outside a region they go on at once (log 6), and P stands as it was (log 28); the value of that PROT is free
(log 7). -/
def Obligations.RingTakesApplyOrAreDeferred : Prop :=
  (
    ∀ (s : State) (t : Thread) (h a : BitVec 5) (av : Nat), Issues s t → NoCut s t → t.region = none →
      let n := (t.reg a.toNat).toNat
      let hd := t.handle h.toNat
      let inSlots (b : BufByte) : Bool := (List.range n).any fun k =>
        let slot := aStore (if hd.peerKind = 0 then hd.peer else t.num / 4) + hd.base + (hd.l.toNat + hd.p + k) % hd.depth * (64 * hd.slot64)
        decide (slot ≤ b.pa ∧ b.pa < slot + 64 * hd.slot64)
      (n < hd.depth →
        (Standing s t h 0 av → (¬ReachesOwn s (t.num / 4) hd → RingTraps s t (.ringAdv h a) 0x21) ∧
          (ReachesOwn s (t.num / 4) hd → av < n →
            exec (.ringAdv h a) s = .next ((ringIn s t).takeTrap (issuedBy s t) 0x06 (t.reg a.toNat) t.pc t.seq t.pc))) ∧
        (Standing s t h 1 av → hd.nrep = 0 → (¬ReachesOwn s (t.num / 4) hd → RingTraps s t (.ringPost h a) 0x21) ∧
          (ReachesOwn s (t.num / 4) hd → av < n →
            exec (.ringPost h a) s = .next ((ringIn s t).takeTrap (issuedBy s t) 0x06 (t.reg a.toNat) t.pc t.seq t.pc)))) ∧
      (n ≤ av → n < hd.depth → ReachesOwn s (t.num / 4) hd →
      (Standing s t h 0 av → ∃ u, exec (.ringAdv h a) s = .next u ∧ PublishOnly s u t ∧ u.mem = s.mem.write (counterCells (t.num / 4) n hd) ∧
        u.pubCount = s.pubCount + 1 ∧ u.thread? t.num = some (goesOn ((issuedBy s t).setHandle h.toNat { hd with l := hd.l + word n }) 4)) ∧
      (Standing s t h 1 av → hd.nrep = 0 → ∃ u, exec (.ringPost h a) s = .next u ∧ PublishOnly s u t ∧
        u.mem = s.mem.write (bufCells (t.buf.filter inSlots) ++ counterCells (t.num / 4) n hd) ∧ u.pubCount = s.pubCount + 1 ∧
        u.thread? t.num = some (goesOn ({ issuedBy s t with buf := t.buf.filter fun b => !inSlots b }.setHandle h.toNat
          { hd with l := hd.l + word n }) 4)))) ∧
  (
    ∀ (s : State) (t : Thread) (r : Region) (h a : BitVec 5) (av : Nat), Issues s t → NoCut s t → t.region = some r → s.declared t h.toNat = none →
      let n := (t.reg a.toNat).toNat
      let hd := t.handle h.toNat
      let r' : Region := { r with deferred := r.deferred ++ [.take h.toNat n],
                                  taken := r.taken.setIfInBounds h.toNat (r.taken.toArray.getD h.toNat 0 + n) }
      let t' := goesOn { (issuedBy s t).setHandle h.toNat { hd with p := hd.p + n } with region := some r' } 4
      n ≤ av → n < hd.depth → ReachesOwn s (t.num / 4) hd →
      (Standing s t h 0 av → ∃ u, exec (.ringAdv h a) s = .next u ∧ OnlyThread s u t t') ∧
      (Standing s t h 1 av → hd.nrep = 0 → ∃ u, exec (.ringPost h a) s = .next u ∧ OnlyThread s u t t'))

/-! ### The matrix unit -/

/-- R273, R135: `mx.cfg` with accepted formats and columns that overlap no other live thread's of the tile, and no spill range of a
thread of the tile, stores them in `MX_TCFG` where no fence holds it, and waits behind one that does; columns that overlap one of
them raise OVERLAP.
R301: with no Skink command of the thread outstanding and no fence to wait for, `sp.cfg` of banks, trees and shape registers
that no other thread of the tile has stores the configuration at once and clears the banks it adds; with an earlier command
outstanding, or behind a fence, it enters the queue.
The model's choice: a ternary DEFB is accepted for the ternary modes alone (log 48); that `sp.cfg` acts at once, and enters the
queue behind an earlier command (log 49); the value of the trap is free (log 7).
R278, R306, R135: `mx.wait` and `sp.wait` complete as an acquire, taking a sequence number, once the thread has no command in
that engine's queue and no fence holds them; until then the thread waits. -/
def Obligations.EngineConfigurationsAndWaits : Prop :=
  (
    (
      ∀ (s : State) (t : Thread) (a : BitVec 5) (x : Half), Issues s t →
        let v := (t.reg a.toNat).toNat
        let base := v % 2 ^ 9
        let n := v / 2 ^ 9 % 2 ^ 10
        let mode := x.toNat % 8
        let defa := x.toNat / 2 ^ 3 % 256
        let defb := x.toNat / 2 ^ 11 % 256
        x.toNat < 2 ^ 19 → mode ≤ 4 → v < 2 ^ 19 → base + n ≤ 512 → defa = 0 ∨ acceptedFormat defa →
        defb = 0 ∨ (if mode = 3 ∨ mode = 4 then defb = 14 else acceptedFormat defb) →
        let columns (o : Thread) : Prop := o.num ≠ t.num ∧ ∃ c, (base ≤ c ∧ c < base + n) ∧ mxBase o.mxTcfg ≤ c ∧ c < mxBase o.mxTcfg + mxCount o.mxTcfg
        let spilled (o : Thread) : Prop := ∃ b, (512 * base ≤ b ∧ b < 512 * (base + n)) ∧ wbits o.spill 18 18 ≤ b ∧ b < wbits o.spill 36 18
        let overlap : Prop := ∃ e ∈ (issuedIn s t).threads, e.2.num / 4 = t.num / 4 ∧ (columns e.2 ∨ spilled e.2)
        (overlap → CommandTraps s t (.mxCfg a x) 0x05) ∧
        (¬overlap → (s.fenceOk t.num t.fence = true →
          CompletesAtIssue s t (.mxCfg a x) { issuedBy s t with mxTcfg := word (mode + defa * 2 ^ 3 + defb * 2 ^ 11 + base * 2 ^ 19 + n * 2 ^ 28) }) ∧
        (s.fenceOk t.num t.fence = false → ∃ u w, exec (.mxCfg a x) s = .next u ∧ OnlyThread s u t { issuedBy s t with state := .waiting, wait := some w }))) ∧
    (
      ∀ (s : State) (t : Thread) (a : BitVec 5) (x : Half), Issues s t →
        let v := t.reg a.toNat
        let new := word (v.toNat + x.toNat % 4 * 2 ^ 33 + x.toNat / 4 * 2 ^ 35)
        let tl := s.tile (t.num / 4)
        x.toNat < 32 → x.toNat % 4 ≤ 2 → x.toNat / 4 ≤ 4 → v.toNat < 2 ^ 33 → wbits v 20 6 + wbits v 26 7 ≤ 64 → wbits v 0 16 = 0 ∨ wbits v 16 4 ≠ 0 →
        (∀ e ∈ s.threads, e.2.num / 4 = t.num / 4 → e.1 ≠ t.num → ∀ w ∈ s.skConfigs e.2, skMeets new w = false) →
        ((∀ c ∈ tl.skQ, c.name.thread ≠ t.num) → s.fenceOk t.num t.fence = true →
          ∃ u, exec (.spCfg a x) s = .next u ∧ u.thread? t.num = some (goesOn { issuedBy s t with skTcfg := new, seq := t.seq + 1 } 8) ∧ u.mem = s.mem ∧
            (∀ b w, skBank new b = true → skBank t.skTcfg b = false → w < 256 →
              sparseGet 0 (u.tile (t.num / 4)).banks (256 * b + w) = 0) ∧
            (∀ b w, w < 256 → ¬ (skBank new b = true ∧ skBank t.skTcfg b = false) →
              sparseGet 0 (u.tile (t.num / 4)).banks (256 * b + w) = sparseGet 0 tl.banks (256 * b + w))) ∧
        ((∃ c ∈ tl.skQ, c.name.thread = t.num) ∨ s.fenceOk t.num t.fence = false → Enters s t .sk (.spCfg a x) (issuedBy s t) (.sumCfg new) [] []))) ∧
  (
    ∀ (s : State) (t : Thread), Issues s t →
      let tl := s.tile (t.num / 4)
      let rule (i : Instr) (q : List Cmd) : Prop :=
        ((∀ c ∈ q, c.name.thread ≠ t.num) → s.fenceOk t.num t.fence = true → CompletesAtIssue s t i { issuedBy s t with snap := s.pubCount }) ∧
        ((∃ c ∈ q, c.name.thread = t.num) ∨ s.fenceOk t.num t.fence = false → ∃ u w, exec i s = .next u ∧ OnlyThread s u t { issuedBy s t with state := .waiting, wait := some w })
      rule .mxWait tl.mxQ ∧ rule .spWait tl.skQ ∧ encodeNat .mxWait = [0xA0500000])

/-- R270, R274 to R277: the forms of the matrix commands that name a store enter the queue of the matrix unit where their
offsets are multiples of 64, their ranges lie in their store, their window is legal and allocated, and their format is
accepted; the length of an image, from 64 bytes on, need fit no image.
R270, R275, R277, R370: the ring forms take NROW slots of a handle that is not monitored, whose peers and link are the partition's,
and enter the queue once Avail covers the count; until then the thread waits. -/
def Obligations.MatrixCommandsEnterTheQueue : Prop :=
  (
    ∀ (s : State) (t : Thread) (a b : BitVec 5) (m c : BitVec 1) (p : BitVec 2) (x : Half), Issues s t →
      let va := (t.reg a.toNat).toNat
      let vb := (t.reg b.toNat).toNat
      let w := t.reg b.toNat
      let rows := if p = 3 then 64 else 128
      (va % 64 = 0 → 64 ≤ vb → va + vb ≤ 2 ^ 19 →
        Enters s t .mx (.mxLdb a b m) (issuedBy s t) (.ldb va vb m.toNat 0 4) [] [] ∧
        (x.toNat < 16 → x.toNat % 4 + x.toNat / 4 + 1 ≤ 4 →
          Enters s t .mx (.mxLdbGroups a b m x) (issuedBy s t) (.ldb va vb m.toNat (x.toNat % 4) (x.toNat / 4 + 1)) [] [])) ∧
      (va % 64 = 0 → va + 64 ≤ 2 ^ 20 → WindowFits t w rows (outputColumns t) →
        Enters s t .mx (.mxRunAstore a b c p) (issuedBy s t) (.run none va none w p.toNat (decide (c = 1))) [] []) ∧
      (va % 64 = 0 → va < 2 ^ 20 → x.toNat < 2 ^ 20 → x.toNat % 64 = 0 → va + (winRows w - 1) * x.toNat + 64 ≤ 2 ^ 20 → WindowFits t w rows (outputColumns t) →
        Enters s t .mx (.mxRunStride a b c p x) (issuedBy s t) (.run none va (some x.toNat) w p.toNat (decide (c = 1))) [] []) ∧
      (WindowFits t w 128 512 → Enters s t .mx (.mxClr b) (issuedBy s t) (.clr w) [] []) ∧
      (va % 64 = 0 → va < 2 ^ 20 → va + winRows w * 64 * ((winCols w + 15) / 16) ≤ 2 ^ 20 → WindowFits t w 128 512 →
        Enters s t .mx (.mxOutAstore a b c) (issuedBy s t) (.out none va w (decide (c = 1)) 1 0 0) [] []) ∧
      (acceptedFormat (x.toNat % 256) → x.toNat / 2 ^ 16 ≤ 4 → va % 64 = 0 → va < 2 ^ 20 →
        va + winRows w * 64 * ((winCols w + fmtPerBlock (x.toNat % 256) - 1) / fmtPerBlock (x.toNat % 256)) ≤ 2 ^ 20 → WindowFits t w 128 512 →
        Enters s t .mx (.mxOutAstoreExt a b c x) (issuedBy s t)
          (.out none va w (decide (c = 1)) (x.toNat % 256) (BitVec.ofNat 8 (x.toNat / 256)).toInt (x.toNat / 2 ^ 16)) [] [])) ∧
  (
    ∀ (s : State) (t : Thread) (h : BitVec 4) (b : BitVec 5) (c : BitVec 1) (p : BitVec 2) (x : Half) (av : Nat), Issues s t → NoCut s t →
      s.declared t h.toNat = none →
      let w := t.reg b.toNat
      let hd := t.handle h.toNat
      let n := winRows w
      let slots := [(h.toNat, n)]
      let first := [hd.l.toNat + hd.p]
      n ≤ hd.depth → ReachesOwn s (t.num / 4) hd →
      (Standing s t (h.setWidth 5) 0 av → WindowFits t w (if p = 3 then 64 else 128) (outputColumns t) →
        (n ≤ av → Enters s t .mx (.mxRunRing h b c p) (takes s t h.toNat n) (.run (some h.toNat) 0 none w p.toNat (decide (c = 1))) slots first) ∧
        (av < n → ∃ u w', exec (.mxRunRing h b c p) s = .next u ∧ OnlyThread s u t { issuedBy s t with state := .waiting, wait := some w' })) ∧
      (Standing s t (h.setWidth 5) 1 av → hd.nrep = 0 → WindowFits t w 128 512 → n ≤ av →
        ((winCols w + 15) / 16 + 1 ≤ hd.slot64 →
          Enters s t .mx (.mxOutRing h b c) (takes s t h.toNat n) (.out (some h.toNat) 0 w (decide (c = 1)) 1 0 0) slots first) ∧
        (acceptedFormat (x.toNat % 256) → x.toNat / 2 ^ 16 ≤ 4 →
          (winCols w + fmtPerBlock (x.toNat % 256) - 1) / fmtPerBlock (x.toNat % 256) + 1 ≤ hd.slot64 →
          Enters s t .mx (.mxOutRingExt h b c x) (takes s t h.toNat n)
            (.out (some h.toNat) 0 w (decide (c = 1)) (x.toNat % 256) (BitVec.ofNat 8 (x.toNat / 256)).toInt (x.toNat / 2 ^ 16)) slots first)))

/-- R276, R246, R279: where the engine's next command is an `mx.clr` outside a region, MX_COMMAND_PERFORM takes it from the
queue, every accumulator of its window reads +0, and every other byte of memory reads as before.
R264, R267, R274: an `mx.ldb` of one group of 8-bit blocks in B8 or B4 puts each column's 64 elements, aligned to 8 bits, into the
cells of its macro and their exponent into the scale file, and leaves every other cell and all memory.
R264, R268, R275, R80: an `mx.run` of one A-store row of 8-bit blocks on macro 0 in B8 or B4 adds the products of the aligned groups
to each accumulator of the row with one rounding, CLR reading it as +0, and writes no other byte.
R277, R62: an `mx.out` to the A-store in F32 writes each row's accumulators, a NaN as the canonical one, into zero-padded blocks
described as F32, clears the accumulators with CLRA, and writes no other byte.
R297, R246, R301, R302: where Skink's next command is an `sp.cfg` or an `sp.shape` without slots, SK_COMMAND_PERFORM takes
it from the queue and stores the configuration in its thread, or the shape in its register.
R294 to R296: a step of `sp.up` and of `sp.down` with a shape of one add or multiply node puts the node's value, and the adjoints of
its two leaves, into their words. R303, R304: an `sp.ld` of an A-store block puts its elements into the bank, each rounded once, and an
`sp.st` writes one described block. R305: an `sp.norm` rewrites the bank's words at the new scale, or leaves the bank. No other bank
word and no other byte changes.
The model's choice: log 10. -/
def Obligations.EnginesPerformTheirNextCommand : Prop :=
  (
    ∀ (s : State) (thread : Nat) (c : Cmd) (rest : List Cmd), s.mem.wf = true → s.badBlocks = [] →
      (s.tile (thread / 4)).mxQ = c :: rest → (∀ d ∈ rest, d.id ≠ c.id) → c.name.thread = thread → c.slots = [] →
      s.engineChoice .mx (thread / 4) = some thread →
      let tile := thread / 4
      let Performs (P : State → Prop) : Prop := ∃ u, exec (.mxCommandPerform tile thread) s = .next u ∧ (u.tile tile).mxQ = rest ∧ P u
      (∀ (img mac g : Nat), c.op = .ldb img 32768 mac g 1 → mxMode c.cfg ≤ 1 → mac < 2 → g < 4 → img % 64 = 0 → img + 32768 ≤ 2 ^ 19 →
        let macro_ (s : State) : Macro := if mac = 0 then (s.tile tile).macro0 else (s.tile tile).macro1
        let at_ := aStore tile + 0x100000 + img
        sparseWf 0 (macro_ s).scales = true → (∀ b, b < 512 → EightBit s (at_ + 64 * b)) →
        Performs fun u => u.mem = s.mem ∧ (macro_ u).modes.toArray.getD g 0 = 1 ∧
          (∀ j, j < 512 → ∃ cells e, Aligned 8 ((List.range 64).map fun k => describedByte s (at_ + 512 * k + 64 * (j / 64)) (j % 64)) cells e ∧
            (∀ k, k < 64 → (sparseGet (0 : Byte) (macro_ u).cells (512 * (64 * g + k) + j)).toInt = cells.getD k 0) ∧
            sparseGet 0 (macro_ u).scales (4 * j + g) = e) ∧
          ∀ k j, k < 256 → k / 64 ≠ g → j < 512 → sparseGet (0 : Byte) (macro_ u).cells (512 * k + j) = sparseGet 0 (macro_ s).cells (512 * k + j)) ∧
      (∀ (base : Nat) (w : Word) (clr : Bool), c.op = .run none base none w 0 clr → mxMode c.cfg ≤ 1 → winRows w = 1 → winRow w < 128 →
        winCol w + winCols w ≤ 512 → base % 64 = 0 → base + 256 ≤ 2 ^ 20 → (∀ g, g < 4 → EightBit s (aStore tile + base + 64 * g)) →
        let m := (s.tile tile).macro0
        (∀ g : Fin 4, m.modes[g] = 1) →
        let acc (j : Nat) : Nat := accumulator tile (winCol w + j) (winRow w)
        Performs fun u => ∃ (cells : Nat → List Int) (ea : Nat → Int),
          (∀ g, g < 4 → Aligned (if mxMode c.cfg = 0 then 8 else 4)
            ((List.range 64).map fun k => describedByte s (aStore tile + base + 64 * g) k) (cells g) (ea g)) ∧
          (∀ j, j < winCols w →
            let product (g : Nat) : Int :=
              (List.range 64).foldl (fun v r => v + (cells g).getD r 0 * (sparseGet (0 : Byte) m.cells (512 * (64 * g + r) + j)).toInt) 0
            u.readNat (acc j) 4 = updated (if clr then 0 else s.readNat (acc j) 4)
              ((List.range 4).map fun g => (product g, ea g + sparseGet 0 m.scales (4 * j + g)))) ∧
          ∀ pa, (∀ j, j < winCols w → pa < acc j ∨ acc j + 4 ≤ pa) → u.readByte pa = s.readByte pa) ∧
      (∀ (base : Nat) (w : Word) (clr : Bool), c.op = .out none base w clr 1 0 0 → sparseWf 0 s.descs = true → base % 64 = 0 →
        let per := (winCols w + 15) / 16
        base + winRows w * (64 * per) ≤ 2 ^ 20 → winCol w + winCols w ≤ 512 → winRow w + winRows w ≤ 128 →
        let acc (j i : Nat) : Nat := accumulator tile (winCol w + j) (winRow w + i)
        let dst := aStore tile + base
        let f32 (v : Nat) : Nat := if v / 2 ^ 23 % 256 = 255 ∧ v % 2 ^ 23 ≠ 0 then 0x7FC00000 else v
        Performs fun u =>
          (∀ i j, i < winRows w → j < 16 * per → u.readNat (dst + i * (64 * per) + 4 * j) 4 = if j < winCols w then f32 (s.readNat (acc j i) 4) else 0) ∧
          (∀ q, q < winRows w * per → u.descAt (dst + 64 * q) = 1) ∧
          (∀ i j, i < winRows w → j < winCols w → u.readNat (acc j i) 4 = if clr then 0 else s.readNat (acc j i) 4) ∧
          ∀ pa, pa < dst ∨ dst + winRows w * (64 * per) ≤ pa → (∀ i j, i < winRows w → j < winCols w → pa < acc j i ∨ acc j i + 4 ≤ pa) →
            u.readByte pa = s.readByte pa)) ∧
  (
    ∀ (s : State) (thread : Nat) (c : Cmd) (rest : List Cmd) (w : Word), s.mem.wf = true →
      (s.tile (thread / 4)).mxQ = c :: rest → (∀ d ∈ rest, d.id ≠ c.id) → c.name.thread = thread → c.op = .clr w → c.slots = [] →
      s.engineChoice .mx (thread / 4) = some thread → winCol w + winCols w ≤ 512 → winRow w + winRows w ≤ 128 →
      ∃ u, exec (.mxCommandPerform (thread / 4) thread) s = .next u ∧ (u.tile (thread / 4)).mxQ = rest ∧
        (∀ j k, j < winCols w → k < winRows w →
          u.readNat (aStore (thread / 4) + 0x180000 + ((winCol w + j) * 128 + (winRow w + k)) * 4) 4 = 0) ∧
        (∀ pa, (∀ j k b, j < winCols w → k < winRows w → b < 4 → pa ≠ aStore (thread / 4) + 0x180000 + ((winCol w + j) * 128 + (winRow w + k)) * 4 + b) →
          u.readByte pa = s.readByte pa) ∧ u.threads.map Prod.fst = s.threads.map Prod.fst) ∧
  (
    ∀ (s : State) (thread : Nat) (c : Cmd) (rest : List Cmd), (s.tile (thread / 4)).skQ = c :: rest → (∀ d ∈ rest, d.id ≠ c.id) →
      c.name.thread = thread → c.slots = [] → s.engineChoice .sk (thread / 4) = some thread →
      (∀ (w : Word) (t : Thread), c.op = .sumCfg w → s.thread? thread = some t →
        ∃ u, exec (.skCommandPerform (thread / 4) thread) s = .next u ∧ (u.tile (thread / 4)).skQ = rest ∧
          u.thread? t.num = some { t with skTcfg := w } ∧ u.mem = s.mem) ∧
      (∀ (y : Nat) (ops leafs : Word) (ctl : Nat), c.op = .shape y ops leafs ctl →
        ∃ u, exec (.skCommandPerform (thread / 4) thread) s = .next u ∧ (u.tile (thread / 4)).skQ = rest ∧ u.threads = s.threads ∧ u.mem = s.mem ∧
          (u.tile (thread / 4)).shapes = tabSet (s.tile (thread / 4)).shapes y { ops, leafs, ctl })) ∧
  (
    ∀ (s : State) (thread : Nat) (c : Cmd) (rest : List Cmd), (s.tile (thread / 4)).skQ = c :: rest → (∀ d ∈ rest, d.id ≠ c.id) →
      c.name.thread = thread → c.slots = [] → s.engineChoice .sk (thread / 4) = some thread → thread < 768 → s.badBlocks = [] →
      let tile := thread / 4
      let cfg := c.cfg
      let rnd := wbits cfg 35 3
      let value (b w : Nat) : Ex := wordValue cfg (bankScale s tile b) (bankWord s tile b w)
      let put (b : Nat) (x : Ex) : Nat := wordOf cfg (bankScale s tile b) x
      let Performs (P : State → Prop) : Prop := ∃ u, exec (.skCommandPerform tile thread) s = .next u ∧ (u.tile tile).skQ = rest ∧ P u
      let Keeps (u : State) (but : Nat → Nat → Prop) : Prop :=
        ∀ b w, b < 16 → w < 256 → ¬but b w → bankWord u tile b w = bankWord s tile b w
      sparseWf 0 (s.tile tile).banks = true →
      (∀ (va vb : Word) (y n op : Nat) (flag : Bool), wbits vb 2 12 = 1 → 8 ≤ n → n < 16 → op = 1 ∨ op = 2 →
        let sh := tabGet {} (s.tile tile).shapes y
        let left := wbits sh.leafs (4 * (2 * n - 16)) 4
        let right := wbits sh.leafs (4 * (2 * n - 15)) 4
        let out := sh.ctl / 16 % 16
        let saved := sh.ctl / 256 % 16
        let lane := if left = right then 1 else 0
        let atNode (x : Ex) : Ex := wordValue cfg (bankScale s tile out) (put out x)
        let l := value left (wbits va 0 8)
        let r := value right (wbits va 0 8 + lane)
        sh.ops = word (op * 2 ^ (2 * n - 2)) → sh.ctl % 16 = n → (∀ b ∈ [left, right, out, saved], cfg.getLsbD b = true) →
        (c.op = .up va vb y flag →
          let v := atNode (if op = 1 then (exAdd l r rnd).1 else (exMul l r).1)
          Performs fun u => u.mem = s.mem ∧ bankWord u tile out (wbits va 16 8) = put out v ∧
            (flag = false → bankWord u tile saved (wbits va 24 8) = put saved v) ∧
            Keeps u fun b w => b = out ∧ w = wbits va 16 8 ∨ flag = false ∧ b = saved ∧ w = wbits va 24 8) ∧
        (c.op = .down va vb y flag →
          let g := value out (wbits va 16 8)
          let gl := atNode (if op = 1 then g else (exMul g r).1)
          let gr := atNode (if op = 1 then g else (exMul g l).1)
          let adj := wbits va 32 8
          let into (b w : Nat) (x : Ex) : Nat := put b (if flag then (exAdd (value b w) x rnd).1 else x)
          Performs fun u => u.mem = s.mem ∧ bankWord u tile left adj = into left adj gl ∧ bankWord u tile right (adj + lane) = into right (adj + lane) gr ∧
            Keeps u fun b w => b = left ∧ w = adj ∨ b = right ∧ w = (adj + lane) % 256)) ∧
      (∀ (base b wa cnt : Nat), c.op = .skLoad none none base b wa cnt → b < 16 → 1 ≤ cnt → wa + cnt ≤ 256 → base % 64 = 0 → base + 64 ≤ 2 ^ 20 →
        let pa := aStore tile + base
        let d := (s.descAt pa).toNat
        let fmt := if d % 256 = 0 then passFormat cfg else d % 256
        let scale : Int := if d % 256 = 0 then 0 else (BitVec.ofNat 8 (d / 256)).toInt
        let z := fmtBits fmt / 8
        fmt ∈ [1, 2, 16] → cnt ≤ 64 / z →
        Performs fun u => u.mem = s.mem ∧
          (∀ k, k < cnt → bankWord u tile b (wa + k) = put b ((decodeFmt fmt (s.readNat (pa + z * k) z)).scale scale)) ∧
          Keeps u fun b' w => b' = b ∧ wa ≤ w ∧ w < wa + cnt) ∧
      (∀ (base b wa cnt fmt mode : Nat) (scale : Int), c.op = .skStore none none base b wa cnt fmt scale mode → fmt = 1 ∨ fmt = 16 → 1 ≤ cnt → cnt ≤ 16 →
        wa + cnt ≤ 256 → base % 64 = 0 → base + 64 ≤ 2 ^ 20 → Canonical s →
        let pa := aStore tile + base
        let code (k : Nat) : Nat :=
          (if fmt = 16 then roundSp (value b (wa + k)) scale mode else roundIeee 23 ((value b (wa + k)).scale (-scale)) mode).1
        Performs fun u => (∀ k, k < 16 → u.readNat (pa + 4 * k) 4 = if k < cnt then code k else 0) ∧
          u.descAt pa = BitVec.ofNat 16 (fmt + (scale % 256).toNat * 256) ∧
          (∀ a, a < pa ∨ pa + 64 ≤ a → u.readByte a = s.readByte a) ∧ Keeps u fun _ _ => False) ∧
      (∀ (b : Nat) (goal : Option Int), c.op = .norm b goal → b < 16 →
        let old := bankScale s tile b
        let frac (w : Nat) : Nat := bankWord s tile b w % 2 ^ 24
        let Rewritten (sc : Int) : Prop := Performs fun u => u.mem = s.mem ∧ bankScale u tile b = sc ∧
          (∀ w, w < 256 → bankWord u tile b w = (roundSp ((decodeFmt 16 (bankWord s tile b w)).scale old) sc rnd).1) ∧ Keeps u fun b' _ => b' = b
        let Left : Prop := Performs fun u => u.mem = s.mem ∧ bankScale u tile b = old ∧ Keeps u fun _ _ => False
        (∀ sc, goal = some sc → -2 ^ 31 ≤ sc → sc < 2 ^ 31 → Rewritten sc) ∧
        (goal = none → (∀ w, w < 256 → frac w = 0) → Left) ∧
        (∀ w, goal = none → w < 256 → frac w ≠ 0 → (∀ w', w' < 256 → frac w' ≠ 0 → bankWord s tile b w / 2 ^ 24 ≤ bankWord s tile b w' / 2 ^ 24) →
          let sc := old + 32 - ((bankWord s tile b w / 2 ^ 24 : Nat) : Int)
          (-2 ^ 31 ≤ sc → sc < 2 ^ 31 → Rewritten sc) ∧ (sc < -2 ^ 31 ∨ 2 ^ 31 ≤ sc → Left))))

/-! ### Skink -/

/-- R302, R300, R293, R303 to R305: `sp.shape` of a valid shape, the passes on an allocated tree and shape register, the
A-store transfers of an allocated bank and the renormalisations of one in SPF32 enter Skink's queue.
R303, R304, R270: the ring forms of `sp.ld` and `sp.st` take one slot of a handle that is not monitored, whose peers and link are
the partition's, and enter the queue when Avail is at least one.
R303, R304: the record forms read their shape record at issue; one that describes blocks the transfer accepts enters the
queue with the command.
The model's choice: log 50, 51, 52. -/
def Obligations.SumProductInstructionsEnterTheQueue : Prop :=
  (
    ∀ (s : State) (t : Thread) (a b : BitVec 5) (y : BitVec 6) (k : BitVec 4) (x : Half), Issues s t →
      let va := t.reg a.toNat
      let vb := t.reg b.toNat
      let cfg := t.skTcfg
      let me := issuedBy s t
      (x.toNat < 2 ^ 12 → va.toNat < 2 ^ 30 → skShape cfg y.toNat = true → Shape.valid { ops := va, leafs := vb, ctl := x.toNat } = true →
        Enters s t .sk (.spShape a b y x) me (.shape y.toNat va vb x.toNat) [] []) ∧
      (va.toNat < 2 ^ 40 → vb.toNat < 2 ^ 14 → 4 ≤ vb.toNat → skTree cfg (vb.toNat % 4) = true → skShape cfg y.toNat = true →
        Enters s t .sk (.spUp a b y) me (.up va vb y.toNat false) [] [] ∧ Enters s t .sk (.spDown a b y) me (.down va vb y.toNat false) [] [] ∧
        (x.toNat < 2 → Enters s t .sk (.spUpNosave a b y x) me (.up va vb y.toNat (decide (x = 1))) [] [] ∧
          Enters s t .sk (.spDownAcc a b y x) me (.down va vb y.toNat (decide (x = 1))) [] [])) ∧
      (TransferFits vb → skBank cfg k.toNat = true → va.toNat < 2 ^ 20 → va.toNat % 64 = 0 →
        Enters s t .sk (.spLdAstore a b k) me (.skLoad none none va.toNat k.toNat (vb.toNat % 256) (vb.toNat / 256)) [] [] ∧
        Enters s t .sk (.spStAstore a b k) me (.skStore none none va.toNat k.toNat (vb.toNat % 256) (vb.toNat / 256) (passFormat cfg) 0 0) [] [] ∧
        (x.toNat < 2 ^ 19 → x.toNat % 256 ∈ [1, 2, 16] → x.toNat / 2 ^ 16 ≤ 4 → Enters s t .sk (.spStExt 0 0 a b k x) me
          (.skStore none none va.toNat k.toNat (vb.toNat % 256) (vb.toNat / 256) (x.toNat % 256) (BitVec.ofNat 8 (x.toNat / 256)).toInt (x.toNat / 2 ^ 16)) [] [])) ∧
      (skBank cfg k.toNat = true → passFormat cfg = 16 →
        Enters s t .sk (.spNorm k) me (.norm k.toNat none) [] [] ∧
        (-2 ^ 31 ≤ vb.toInt → vb.toInt < 2 ^ 31 → Enters s t .sk (.spNormSet b k) me (.norm k.toNat (some vb.toInt)) [] []))) ∧
  (
    ∀ (s : State) (t : Thread) (h : BitVec 4) (b : BitVec 5) (k : BitVec 4) (x : Half) (av : Nat), Issues s t → NoCut s t → s.declared t h.toNat = none →
      let vb := t.reg b.toNat
      let hd := t.handle h.toNat
      let wa := vb.toNat % 256
      let cnt := vb.toNat / 256
      TransferFits vb → skBank t.skTcfg k.toNat = true → 1 ≤ av → ReachesOwn s (t.num / 4) hd →
      (Standing s t (h.setWidth 5) 0 av →
        Enters s t .sk (.spLdRing h b k) (takes s t h.toNat 1) (.skLoad (some h.toNat) none 0 k.toNat wa cnt) [(h.toNat, 1)] [hd.l.toNat + hd.p]) ∧
      (Standing s t (h.setWidth 5) 1 av → hd.nrep = 0 →
        (transferBlocks (passFormat t.skTcfg) cnt + 1 ≤ hd.slot64 →
          Enters s t .sk (.spStRing h b k) (takes s t h.toNat 1) (.skStore (some h.toNat) none 0 k.toNat wa cnt (passFormat t.skTcfg) 0 0)
            [(h.toNat, 1)] [hd.l.toNat + hd.p]) ∧
        (x.toNat < 2 ^ 19 → x.toNat % 256 ∈ [1, 2, 16] → x.toNat / 2 ^ 16 ≤ 4 → transferBlocks (x.toNat % 256) cnt + 1 ≤ hd.slot64 →
          Enters s t .sk (.spStExt 1 h 0 b k x) (takes s t h.toNat 1) (.skStore (some h.toNat) none 0 k.toNat wa cnt (x.toNat % 256)
            (BitVec.ofNat 8 (x.toNat / 256)).toInt (x.toNat / 2 ^ 16)) [(h.toNat, 1)] [hd.l.toNat + hd.p]))) ∧
  (
    ∀ (s s1 : State) (t : Thread) (a b : BitVec 5) (k : BitVec 4) (x : Half) (bs : List Byte), Issues s t →
      let vb := t.reg b.toNat
      let wa := vb.toNat % 256
      let cnt := vb.toNat / 256
      let r := tensorOf bs 0
      TransferFits vb → skBank t.skTcfg k.toNat = true → (t.reg a.toNat).toNat % 64 = 0 →
      (issuedIn s t).loadGlobal (issuedBy s t) (t.reg a.toNat).toNat 64 = (s1, .ok bs) → r.space < 2 → r.none_ = false →
      (r.check false false = none → r.fmt = 0 →
        EntersAfterRead s t .sk (.spLdRecord a b k) (.skLoad none (some bs) 0 k.toNat wa cnt)) ∧
      (x.toNat / 2 ^ 19 = 1 → x.toNat % 256 ∈ [1, 2, 16] → x.toNat / 2 ^ 16 % 8 ≤ 4 → r.check true false = none → r.fmt = x.toNat % 256 →
        (r.block? (transferBlocks r.fmt cnt - 1)).isSome = true → EntersAfterRead s t .sk (.spStRecord a b k x)
          (.skStore none (some bs) 0 k.toNat wa cnt r.fmt (BitVec.ofNat 8 (x.toNat / 256)).toInt (x.toNat / 2 ^ 16 % 8))))

/-! ### Copies -/

/-- R310 to R313: a `cp` whose two records pass their checks, with equal bytes, no other destination format and no partial
overlap, and a `cp.expect` of a legal count with a completion word, enter the copy queue.
R312, R313, R246: COPY_PERFORM takes the thread's next copy command from the queue. A `cp.expect` of an IDLE expectation
arms it; an uncredited copy of one A-store block without a completion word writes the destination block with the
source's bytes and no other byte.
R314, R315: an ARMED expectation whose watchdog has run down, of a thread that is not Stopped and outside a region,
becomes IDLE, and its thread takes COPY_SHORT with the bytes that were left, under the name of its `cp.expect`.
The model's choice: log 10. -/
def Obligations.CopiesMoveArmAndTrap : Prop :=
  (
    ∀ (s s1 s2 : State) (t : Thread) (a b : BitVec 5) (c : BitVec 1) (e : BitVec 2) (x : Half) (bs cs : List Byte), Issues s t →
      let va := t.reg a.toNat
      let comp := t.reg b.toNat
      let so (z : Bool) : Int := if z then (BitVec.ofNat 16 x.toNat).toInt else 0
      let dO (z : Bool) : Int := if z then (BitVec.ofNat 16 (x.toNat / 2 ^ 16)).toInt else 0
      let Good (z : Bool) : Prop :=
        (tensorOf bs (so z)).check false true = none ∧ (tensorOf cs (dO z)).check true true = none ∧
        (tensorOf bs (so z)).bytes = (tensorOf cs (dO z)).bytes ∧
        ((tensorOf cs (dO z)).fmt = 0 ∨ (tensorOf cs (dO z)).fmt = (tensorOf bs (so z)).fmt) ∧
        ((tensorOf bs (so z)).space = 0 ∨ (tensorOf bs (so z)).space ≠ (tensorOf cs (dO z)).space ∨ (tensorOf bs (so z)).none_ = true ∨
          partialOverlap (tensorOf bs (so z)) (tensorOf cs (dO z)) = false)
      let op (z : Bool) : CmdOp := .copy bs cs (so z) (dO z) (if c = 1 then some e.toNat else none) comp
      (CompletionOk comp (decide (c = 1)) → va.toNat % 64 = 0 → (issuedIn s t).loadGlobal (issuedBy s t) va.toNat 64 = (s1, .ok bs) →
        s1.loadGlobal (issuedBy s t) (va.toNat + 64) 64 = (s2, .ok cs) →
        (Good false → EntersAfterRead s t .cp (.cp a b c e) (op false)) ∧ (Good true → EntersAfterRead s t .cp (.cpOffset a b c e x) (op true))) ∧
      (CompletionOk comp false → comp.getLsbD 20 = true → 1 ≤ va.toNat → va.toNat < 2 ^ 48 → x.toNat < 2 ^ 20 →
        Enters s t .cp (.cpExpect a b e x) (issuedBy s t) (.expect e.toNat va.toNat comp ((if x = 0 then 1000 else x.toNat) * 1000)) [] [])) ∧
  (
    ∀ (s : State) (thread : Nat) (c : Cmd) (rest : List Cmd), (s.tile (thread / 4)).cpQ = c :: rest → (∀ d ∈ rest, d.id ≠ c.id) →
      c.name.thread = thread → c.slots = [] → s.engineChoice .cp (thread / 4) = some thread →
      (∀ (t : Thread) (e n wd : Nat) (comp : Word), e < 4 → c.op = .expect e n comp wd → s.thread? thread = some t →
        t.num = thread → (t.expect e).armed = false →
        ∃ u, exec (.copyPerform (thread / 4) thread) s = .next u ∧ (u.tile (thread / 4)).cpQ = rest ∧ u.mem = s.mem ∧
          u.thread? thread = some (t.setExpect e { armed := true, remaining := n, completion := comp, watchdog := wd, name := c.name, inRegion := c.inRegion })) ∧
      (∀ (bs cs : List Byte) (so dO : Int) (comp : Word) (x y : Nat), c.op = .copy bs cs so dO none comp → comp.getLsbD 20 = false →
        s.mem.wf = true → s.badBlocks = [] → thread < 768 → BlockAt (tensorOf bs so) x → BlockAt (tensorOf cs dO) y →
        ∃ u, exec (.copyPerform (thread / 4) thread) s = .next u ∧ (u.tile (thread / 4)).cpQ = rest ∧ (∀ n, (u.thread? n).map unseen = (s.thread? n).map unseen) ∧
          ∀ a, u.readBytes a 1 = if aStore (thread / 4) + y ≤ a ∧ a < aStore (thread / 4) + y + 64
            then s.readBytes (a - y + x) 1 else s.readBytes a 1)) ∧
  (
    ∀ (s : State) (thread e : Nat) (t : Thread), s.thread? thread = some t → t.num = thread → e < 4 → t.state ≠ .stopped →
      let x := t.expect e
      x.armed = true → x.watchdog = 0 → x.inRegion = false → x.name.thread = thread → t.pending.length < 16 →
      (s.tile (thread / 4)).cpQ = [] →
      ∃ u t2, exec (.copyShort thread e) s = .next u ∧ u.thread? thread = some t2 ∧ (t2.expect e).armed = false ∧
        t2.pending = t.pending ++ [{ cause := 0x62, tval := word x.remaining, tpc := x.name.pc, tseq := x.name.seq }] ∧ u.mem = s.mem)

/-! ### Elements -/

/-- R153, R157 to R159, R161 to R170: a compute element with its operands and room emits its operation's result to both
consumers, and sets its flags; a null operand makes it emit as its null policy says, without computing.
R65, R69, R70, R72, R74, R78: for F32 and BF16 in every mode, rounding delivers a value that has a code as that code, subnormals and
infinities among them, and NaN as the canonical NaN; a value between two neighbours as the one that the mode chooses, the infinity
beyond the largest, with NX, with OF beyond the largest and UF below 2⁻¹²⁶; one of 2¹²⁸ or more as the infinity or the largest. A NaN
operand gives the canonical NaN without a flag, ∞ − ∞ and 0 × ∞ give it with NV, and a sum or product of finite values is the exact one
rounded once. R80: the sum of a chunk's terms is exact. -/
def Obligations.ComputeElementsEmitTheirResult : Prop :=
  (∀ mb mode : Nat, mb = 7 ∨ mb = 23 → mode < 5 →
    let sign (neg : Bool) : Nat := if neg then 2 ^ (8 + mb) else 0
    let inf := 255 * 2 ^ mb
    let nan := inf + 2 ^ (mb - 1)
    let away (neg : Bool) : Prop := mode = 2 ∧ neg = false ∨ mode = 3 ∧ neg = true
    let isNan (c : Nat) : Prop := c / 2 ^ mb % 256 = 255 ∧ c % 2 ^ mb ≠ 0
    let finite (c : Nat) : Prop := c < 2 ^ (9 + mb) ∧ c / 2 ^ mb % 256 ≠ 255
    (roundIeee mb .nan mode = (nan, {}) ∧
      (∀ c, c < 2 ^ (9 + mb) → ¬isNan c → roundIeee mb (decodeIeee mb c) mode = (c, {})) ∧
      (∀ (neg : Bool) (e : Int), roundIeee mb (.inf neg) mode = (sign neg + inf, {}) ∧ roundIeee mb (.fin neg 0 e) mode = (sign neg, {})) ∧
      (∀ (neg : Bool) (m k : Nat) (e : Int), m ≠ 0 → k < inf →
        let n := (magnitude mb k).1
        let q := (magnitude mb k).2
        let x := m * 2 ^ (e - min e q).toNat
        let lo := n * 2 ^ (q - min e q).toNat
        let hi := (n + 1) * 2 ^ (q - min e q).toNat
        lo ≤ x → x < hi →
        let up : Prop := mode = 0 ∧ (lo + hi < 2 * x ∨ lo + hi = 2 * x ∧ k % 2 = 1) ∨ mode = 4 ∧ lo + hi ≤ 2 * x ∨ x ≠ lo ∧ away neg
        let flags : Flags := { nx := decide (x ≠ lo), of := decide (x ≠ lo ∧ k + 1 = inf), uf := decide (x ≠ lo ∧ k < 2 ^ mb) }
        (up → roundIeee mb (.fin neg m e) mode = (sign neg + (k + 1), flags)) ∧
        (¬up → roundIeee mb (.fin neg m e) mode = (sign neg + k, flags))) ∧
      (∀ (neg : Bool) (m : Nat) (e : Int), 2 ^ (128 - min e 128).toNat ≤ m * 2 ^ (e - min e 128).toNat →
        (mode = 0 ∨ mode = 4 ∨ away neg → roundIeee mb (.fin neg m e) mode = (sign neg + inf, { of := true, nx := true })) ∧
        (¬(mode = 0 ∨ mode = 4 ∨ away neg) → roundIeee mb (.fin neg m e) mode = (sign neg + (inf - 1), { of := true, nx := true })))) ∧
    (∀ a b, a < 2 ^ (9 + mb) → b < 2 ^ (9 + mb) →
      (isNan a ∨ isNan b → fpAdd mb a b mode = (nan, {}) ∧ fpSub mb a b mode = (nan, {}) ∧ fpMul mb a b mode = (nan, {}) ∧
        ∀ c, fpFma mb a b c mode = (nan, {})) ∧
      (isNan a → ∀ c d, fpFma mb c d a mode = (nan, {})) ∧
      (a = inf → b = inf → fpSub mb a b mode = (nan, { nv := true })) ∧ (a = inf → b = 0 → fpMul mb a b mode = (nan, { nv := true })) ∧
      (finite a → finite b → ∀ (na nb : Bool) (ma mb' : Nat) (ea eb : Int),
        decodeIeee mb a = .fin na ma ea → decodeIeee mb b = .fin nb mb' eb →
        fpMul mb a b mode = roundIeee mb (.fin (na != nb) (ma * mb') (ea + eb)) mode ∧
        (ma ≠ 0 → mb' ≠ 0 →
          let unit (neg : Bool) (m : Nat) (e : Int) : Int := (if neg then -1 else 1) * ((m * 2 ^ (e - min ea eb).toNat : Nat) : Int)
          let v := unit na ma ea + unit nb mb' eb
          fpAdd mb a b mode = if v = 0 then (sign (decide (mode = 3)), {}) else roundIeee mb (.fin (decide (v < 0)) v.natAbs (min ea eb)) mode) ∧
        (ma = 0 → mb' ≠ 0 → fpAdd mb a b mode = (b, {})) ∧
        (ma = 0 → mb' = 0 → fpAdd mb a b mode = (sign (if na = nb then na else decide (mode = 3)), {}))))) ∧
  (∀ (terms : List (Int × Int)) (e : Int), (∀ x ∈ terms, x.1 ≠ 0 → e ≤ x.2) →
    let t := exactSum terms
    (t.1 ≠ 0 → e ≤ t.2) ∧ t.1 * 2 ^ (t.2 - e).toNat = (terms.map fun x => x.1 * 2 ^ (x.2 - e).toNat).sum) ∧
  ∀ f ∈ elementForms, ∀ (s : State) (p : Page) (a b : BitVec 9) (q : BitVec 2) (n : BitVec 1) (v : BitVec 3) (ops : List Token),
    ops.length = f.2.1 → Operands p s.curSlot q ops →
    let w (k : Nat) : Half := (ops.getD k {}).payload
    let r := f.2.2 (pageMode p v) v (w 0) (w 1) (w 2)
    let out := [resultOf ops (BitVec.ofNat 32 r.1)]
    ((∀ k ∈ ops, k.n = false) → ElementFires s p (f.1 a b q n v) a b (queuesRead f.2.1 q) out out r.2 (p.elem s.curSlot)) ∧
    ((∃ k ∈ ops, k.n = true) →
      ElementFires s p (f.1 a b q n v) a b (queuesRead f.2.1 q) (nullOut n ops) (nullOut n ops) {} (p.elem s.curSlot))

/-- R170 to R173: `tagset`, `pass`, `ends`, `steer`, `merge` and `gate` emit as their rules say.
R174 to R176: `dup`, `acc` and `cnt` emit and keep their registers as their rules say. -/
def Obligations.RoutingAndRegisterElements : Prop :=
  (
    ∀ (s : State) (p : Page) (a b : BitVec 9) (q : BitVec 2) (n : BitVec 1) (x y : Token),
      let rest := a.toNat * 2 ^ 15 + b.toNat * 2 ^ 6 + q.toNat * 2 ^ 4 + n.toNat * 2 ^ 3
      (encodeNat (.steer a b q n) = [0x41 * 2 ^ 24 + rest] ∧ encodeNat (.gate a b q n) = [0x43 * 2 ^ 24 + rest] ∧ encodeNat (.cnt a b q n) = [0x49 * 2 ^ 24 + rest]) ∧
      let reg := p.elem s.curSlot
      let one := [x]
      let two := [x, y]
      let none_ := nullOut n two
      let Fires (i : Instr) (toA toB : List Token) : Prop := ElementFires s p i a b (queuesRead 2 q) toA toB {} reg
      (Operands p s.curSlot q one →
        let out := if x.n then nullOut n one else [x]
        ElementFires s p (.pass a b q n) a b (queuesRead 1 q) out out {} reg ∧
        (q = 1 ∨ q = 2 → ElementFires s p (.merge a b q n) a b (queuesRead 1 q) out out {} reg)) ∧
      (Operands p s.curSlot q two →
        (y.n = true ∨ (x.n = true ∧ n = 1) → Fires (.tagset a b q n) none_ none_ ∧ Fires (.ends a b q n) none_ none_) ∧
        (y.n = false → (x.n = true → n = 0) →
          let tg : List Token := [{ carried two x with t := y.payload.toNat % 32 }]
          let en : List Token := [{ carried two x with e := max (max x.e y.e) (y.payload.toNat % 4) }]
          Fires (.tagset a b q n) tg tg ∧ Fires (.ends a b q n) en en) ∧
        (x.n = true ∨ y.n = true → Fires (.steer a b q n) none_ none_ ∧ Fires (.gate a b q n) none_ none_) ∧
        (x.n = false → y.n = false →
          let other := if n = 0 then [{ resultOf two 0 with n := true }] else []
          (y.payload ≠ 0 → Fires (.steer a b q n) [carried two x] other ∧ Fires (.gate a b q n) [carried two x] [carried two x]) ∧
          (y.payload = 0 → Fires (.steer a b q n) other [carried two x] ∧ Fires (.gate a b q n) none_ none_)) ∧
        (q = 0 ∨ q = 3 →
          let ax : Token := { x with e := max x.e y.e }
          let by_ : Token := { y with e := max x.e y.e }
          (x.n = false → y.n = true → Fires (.merge a b q n) [ax] [ax]) ∧ (x.n = true → y.n = false → Fires (.merge a b q n) [by_] [by_]) ∧
          (x.n = true → y.n = true → Fires (.merge a b q n) none_ none_) ∧
          (x.n = false → y.n = false → ElementFires s p (.merge a b q n) a b (queuesRead 2 q) [ax] [ax] {} { reg with second := some by_ })))) ∧
  (
    ∀ (s : State) (p : Page) (a b : BitVec 9) (q : BitVec 2) (n : BitVec 1) (v : BitVec 3) (x y : Token),
      let reg := p.elem s.curSlot
      let two := [x, y]
      let Fires (i : Instr) (out : List Token) (reg2 : ElemReg) : Prop := ElementFires s p i a b (queuesRead 2 q) out out {} reg2
      (Operands p s.curSlot q two → y.n = false → (x.n = true → n = 0) →
        let m := y.payload.toNat % 65536
        (m = 0 → Fires (.dup a b q n) (if topRank two ≠ 0 then [{ resultOf two 0 with n := true }] else []) reg) ∧
        (m = 1 → Fires (.dup a b q n) [carried two x] reg) ∧
        (2 ≤ m → Fires (.dup a b q n) [{ carried two x with e := 0 }] { reg with dupTok := carried two x, dupLeft := m - 1 })) ∧
      (Operands p s.curSlot q two → y.n = true ∨ (x.n = true ∧ n = 1) → Fires (.dup a b q n) (nullOut n two) reg) ∧
      (Operands p s.curSlot q two →
        let c1 := reg.count + 1
        let c2 : Half := if y.n = false ∧ y.payload ≠ 0 ∧ c1 = y.payload then 0 else c1
        (x.n = false → y.n = false → Fires (.cnt a b q n) [resultOf two reg.count] { reg with count := c2 }) ∧
        (x.n = true ∨ y.n = true → Fires (.cnt a b q n) (nullOut n two) (if n = 0 then { reg with count := c2 } else reg))) ∧
      (Operands p s.curSlot q [x] →
        let k := (elemConst p.image s.curSlot 1).toNat % 4
        let sum := fpAdd 23 reg.sum.toNat x.payload.toNat (pageMode p v)
        let s1 : Half := if x.n then reg.sum else BitVec.ofNat 32 sum.1
        let bad := reg.poisoned || (x.n && decide (n = 0))
        let out := if k = 0 ∨ k ≤ x.e then [({ resultOf [x] (if bad then 0 else s1) with n := bad } : Token)] else []
        ElementFires s p (.acc a b q n v) a b (queuesRead 1 q) out out (if x.n then {} else sum.2)
          (if k ≠ 0 ∧ k ≤ x.e then { reg with sum := 0, poisoned := false } else { reg with sum := s1, poisoned := bad })))

/-- R172, R174, R154, R156, R180: the events of a resident page. A `merge` sends its second token; a `dup` with room sends
its next copy, of which only the last carries the firing's E; the first token in flight to an operand queue lands there; a
queue's turn releases the token held for it.
R178, R180: with a token in every masked column and room, an RSU takes one token from each, folds the non-null ones from
the lowest column up, and sends the fold, or a scan's first value, keeping the rest to send one by one.
R180: the next value of a scan leaves when there is room for it.
The model's choice: log 34 (an RSU column's room), 35 (a scan fires on room for the first of its tokens alone, and each later one, as a
`dup`'s copy, on room for itself). -/
def Obligations.PageUnitsMoveAndFoldTokens : Prop :=
  (
    ∀ (s : State) (p : Page) (n slot : Nat), s.page? n = some p → p.region.isSome = true →
      let reg := p.elem slot
      let toAll (p : Page) (k : Token) : Page := (consumersOf p.image slot).foldl (fun p c => p.sendAll slot slot c [k]) p
      (∀ k, reg.second = some k →
        exec (.mergeSecondEmit n slot) s = .next { s with pages := tabSet s.pages p.id (toAll (p.setElem slot { reg with second := none }) k) }) ∧
      (∀ m, reg.dupLeft = m + 1 → (∀ f ∈ p.st.held, f.producer ≠ slot) →
        let k : Token := if m = 0 then reg.dupTok else { reg.dupTok with e := 0 }
        s.roomFor p slot ((consumersOf p.image slot).map fun c => (c, 1, [k])) true = some true →
        exec (.dupCopyEmit n slot) s = .next { s with pages := tabSet s.pages p.id (toAll (p.setElem slot { reg with dupLeft := m }) k) }) ∧
      (∀ (f : Flight) (rest : List Flight) (q : Nat), p.st.flight = f :: rest → f.dest = .queue slot q → p.st.marked = [] →
        let qu := p.queue slot q
        let p1 : Page := { p with st := { p.st with flight := rest } }
        ∃ u, exec (.tokenArrival n 0) s = .next u ∧
          u = { s with pages := tabSet s.pages p.id (p1.setQueue slot q { qu with toks := qu.toks ++ [f.tok] }), meters := u.meters, accounts := u.accounts }) ∧
      (∀ (f : Flight) (rest : List Flight) (q : Nat), p.st.held = f :: rest → f.dest = .queue slot q →
        (producersOf p.image slot q)[(p.queue slot q).turn]? = some f.producer →
        let qu := p.queue slot q
        let p1 : Page := { p with st := { p.st with held := rest, flight := p.st.flight ++ [f] } }
        exec (.queueTurnRelease n slot q) s =
          .next { s with pages := tabSet s.pages p.id (p1.setQueue slot q { qu with turn := (qu.turn + 1) % (producersOf p.image slot q).length }) })) ∧
  (
    ∀ (s : State) (p : Page) (n row : Nat) (ins : List Token), s.page? n = some p → p.region.isSome = true →
      let r := p.rsu row
      let w := rsuWord p.image row
      let cols := (List.range 8).filter fun c => w.testBit (17 + c)
      let out := w / 2 ^ 8 % 2 ^ 9
      let mode := if w / 2 ^ 25 % 8 = 5 then p.st.rnd else w / 2 ^ 25 % 8
      let vals := (ins.filter fun k => !k.n).map Token.payload
      let step (x y : Half) : Nat × Flags := rsuStep (w % 2 ^ 7) mode x y
      let fold (k : Nat) : Half := ((vals.take (k + 1)).drop 1).foldl (fun x y => BitVec.ofNat 32 (step x y).1) (vals.headD 0)
      let flags := (List.range (vals.length - 1)).foldr (fun k f => (step (fold k) (vals.getD (k + 1) 0)).2.or f) {}
      let last : Token := if vals = [] then { n := true, e := topRank ins, t := (ins.headD {}).t }
        else { payload := fold (vals.length - 1), e := topRank ins, t := (ins.headD {}).t }
      let toks : List Token := if w.testBit 7 then (List.range (vals.length - 1)).map (fun k => { payload := fold k, t := (ins.headD {}).t }) ++ [last] else [last]
      (p.image.getD 6 0).toNat.testBit row = true → cols ≠ [] → r.emit = [] → (∀ f ∈ p.st.held, f.producer ≠ 64 + row) → (∀ e ∈ portsNamed 0 [out], (p.port e).held = []) →
      cols.map (fun c => (tabGet [] r.inputs c).head?) = ins.map some → (∀ k ∈ ins, k.m = false) →
      s.roomFor p (8 * row + 7) [(out, 1, toks.take 1)] = some true →
      (∃ u, exec (.rsuFire n row) s = .next u ∧
        let p1 := p.setRsu row { r with inputs := cols.foldl (fun t c => tabSet t c (tabGet [] r.inputs c).tail) r.inputs, emit := toks.tail, scan := w.testBit 7 }
        let p2 : Page := { moved s p1 with st := { p1.st with flags := p.st.flags ||| flags.toBits } }
        u = { s with pages := tabSet s.pages p.id (p2.sendAll (64 + row) (8 * row + 7) out (toks.take 1)), meters := u.meters, accounts := u.accounts })) ∧
  (
    ∀ (s : State) (p : Page) (n row : Nat) (k : Token) (rest : List Token), s.page? n = some p → p.region.isSome = true → (p.rsu row).emit = k :: rest →
      (∀ f ∈ p.st.held, f.producer ≠ 64 + row) →
      let out := rsuWord p.image row / 2 ^ 8 % 2 ^ 9
      s.roomFor p (8 * row + 7) [(out, 1, [k])] true = some true →
      exec (.rsuScanEmit n row) s =
        .next { s with pages := tabSet s.pages p.id ((p.setRsu row { p.rsu row with emit := rest }).sendAll (64 + row) (8 * row + 7) out [k]) })

/-! ### Streams -/

/-- R201, R204, R205: the `rin` of an open slot with a good word at its cursor, room and a passing tag check sends the word as a token
with the slot's T, and the slot's E on its last word, whose sending finishes the slot. With no slot open, the slot at
Head opens, and P rises, and its first token leaves at once where there is room; so does the marker of a marker slot, which is not
counted, with word 0 as its payload. A trailer that R187 does not allow faults the port with FMT and no token leaves. In a marker firing the
`rin` of a back edge sends the cut's marker.
R202, R203, R154: a `rout` or `rep` with a token at `q0` and room, and the arrival and the retry of a token at a port, write the
token's word at the port's cursor; slots open and close with their trailers, and a marker takes a slot of its own, as R202 says.
The model's choice: log 122 (the *L* of Avail). -/
def Obligations.PortsMoveTheirWords : Prop :=
  (
    ∀ (s : State) (p : Page) (t : Thread) (a b : BitVec 9) (i : BitVec 4), s.page? s.curPage = some p → FiringOpen s p t →
      t.wait = none → wellFormed (.rin a b i) = true → p.busy s.curSlot [a.toNat, b.toNat] = false → portBack p.image i.toNat = false →
      let e := i.toNat
      let hn := portHandle p.image e
      let h := t.handle hn
      let head := h.l.toNat + h.p
      let pt := p.port e
      let tokAt (tr v c : Nat) : Token :=
        { payload := if tr.testBit 20 then 0 else BitVec.ofNat 32 (s.readNat (h.slotPa t.tile v + 4 * c) 4), n := tr.testBit 20
          e := if c + 1 = tr % 2 ^ 13 then tr / 2 ^ 13 % 4 else 0, t := tr / 2 ^ 15 % 32 }
      let portAt (tr v c : Nat) (q : Port) : Port :=
        if c + 1 = tr % 2 ^ 13 then { q with isOpen := false, slot := v, trailer := tr, cursor := 0, count := q.count + 1, finished := q.finished + 1 }
        else { q with isOpen := true, slot := v, trailer := tr, cursor := c + 1, count := q.count + 1 }
      let sent (s : State) (q : Page) (k : Token) : Page :=
        moved s ((q.sendAll s.curSlot s.curSlot a.toNat [k]).sendAll s.curSlot s.curSlot b.toNat [k])
      let Sends (s : State) (q : Page) (tr v c : Nat) : Prop :=
        (tr.testBit 20 = false → s.bad (h.slotPa t.tile v + 4 * c) 4 = false) ∧
        (portTchk p.image e = true → tr.testBit 20 = false → tr / 2 ^ 15 % 32 = portTag p.image e) ∧
        s.roomFor q s.curSlot [(a.toNat, 1, [tokAt tr v c]), (b.toNat, 1, [tokAt tr v c])] = some true
      (pt.isOpen = true → pt.trailer.testBit 21 = false → Sends s p pt.trailer pt.slot pt.cursor →
        ∃ u, exec (.rin a b i) s = .next u ∧ u = { s with
          pages := tabSet s.pages p.id ((sent s p (tokAt pt.trailer pt.slot pt.cursor)).setPort e (portAt pt.trailer pt.slot pt.cursor pt))
          meters := u.meters, accounts := u.accounts, fresh := u.fresh }) ∧
      (∀ (w : Nat), pt.isOpen = false → (∃ av, 0 < av ∧ s.availTo? t.tile h = some av) → hn < 16 →
        let line := s.readBytes (h.slotPa t.tile head + h.slotB - 64) 64
        let p1 := p.setPort e { pt with isOpen := true, slot := head, cursor := 0, trailer := w }
        let Leaves (t1 : Thread) (q : Page) : Prop :=
          ∃ u, exec (.rin a b i) s = .next u ∧ u.mem = s.mem ∧ (u.thread? t.num).map unseen = some (unseen t1) ∧ u.page? p.id = some q
        s.bad (h.slotPa t.tile head + h.slotB - 64) 64 = false → leNat (line.take 4) = w →
        (s.takeOk t hn 1 = true → w < 2 ^ 21 → (∀ x ∈ line.drop 4, x = 0) → 1 ≤ w % 2 ^ 13 → w % 2 ^ 13 ≤ portTps p.image e →
          let t1 := t.takeFor hn true
          let s1 : State := { s with threads := tabSet s.threads t.num t1 }
          (Sends s1 p1 w head 0 → Leaves t1 ((sent s1 p1 (tokAt w head 0)).setPort e (portAt w head 0 pt))) ∧
          ((portTchk p.image e = true → w.testBit 20 = false → w / 2 ^ 15 % 32 = portTag p.image e) →
            (w.testBit 20 = false → s.bad (h.slotPa t.tile head) 4 = false) →
            s1.roomFor p1 s.curSlot [(a.toNat, 1, [tokAt w head 0]), (b.toNat, 1, [tokAt w head 0])] = some false → Leaves t1 p1)) ∧
        (NoCut s t → 2 ^ 21 ≤ w → w < 2 ^ 22 → (∀ x ∈ line.drop 4, x = 0) → w % 2 ^ 13 = 0 → s.bad (h.slotPa t.tile head) 4 = false →
          let t1 := t.takeFor hn false
          let mk : Token := { payload := BitVec.ofNat 32 (s.readNat (h.slotPa t.tile head) 4), m := true }
          let s1 : State := { s with threads := tabSet s.threads t.num t1 }
          s1.roomFor p1 s.curSlot [(a.toNat, 1, [mk]), (b.toNat, 1, [mk])] = some true →
          Leaves t1 ((sent s1 p1 mk).setPort e
            { pt with isOpen := false, slot := head, cursor := 0, trailer := w, finished := pt.finished + 1, finishedMark := pt.finishedMark + 1 })) ∧
        (s.takeOk t hn 1 = true → w.testBit 21 = false → 2 ^ 22 ≤ w ∨ w % 2 ^ 13 = 0 ∨ portTps p.image e < w % 2 ^ 13 →
          exec (.rin a b i) s = .next (s.portFault t p e 7 (h.base + head % h.depth * h.slotB) 0)))) ∧
  (∀ (s : State) (p : Page) (t : Thread) (a b : BitVec 9) (i : BitVec 4), s.page? s.curPage = some p → p.region.isSome = true →
    s.pageThread p = some t → wellFormed (.rin a b i) = true → p.busy s.curSlot [a.toNat, b.toNat] = false → p.st.aligning = true →
    portBack p.image i.toNat = true → s.curSlot ∉ p.st.marked →
    let mk : Token := { payload := BitVec.ofNat 32 p.st.cutNum, m := true }
    s.roomFor p s.curSlot [(a.toNat, 1, [mk]), (b.toNat, 1, [mk])] = some true →
    let q := moved s ((p.sendAll s.curSlot s.curSlot a.toNat [mk]).sendAll s.curSlot s.curSlot b.toNat [mk])
    exec (.rin a b i) s = .next { s with pages := tabSet s.pages p.id { q with st := { q.st with marked := s.curSlot :: q.st.marked } } }) ∧
  (
    ∀ (s : State) (p : Page) (t : Thread) (k : Token), FiringOpen s p t → t.wait = none →
      (∀ (a b : BitVec 9) (i : BitVec 4), s.page? s.curPage = some p → HeadIs p s.curSlot 0 k → Accepts s p t i.toNat k →
        (p.port i.toNat).held = [] →
        let gone := consumed p s.curSlot [0]
        (wellFormed (.rout i) = true → p.busy s.curSlot [0x1FF, 0x1FF] = false →
          s.roomFor p s.curSlot [(256 + 4 * i.toNat, 1, [k])] = some true → PortWrites s (.rout i) (moved s gone) t i.toNat k) ∧
        (wellFormed (.rep a b i) = true → p.busy s.curSlot [a.toNat, b.toNat] = false →
          s.roomFor p s.curSlot [(256 + 4 * i.toNat, 1, [k]), (a.toNat, 1, [k]), (b.toNat, 1, [k])] = some true →
          PortWrites s (.rep a b i) (moved s ((gone.sendAll s.curSlot s.curSlot a.toNat [k]).sendAll s.curSlot s.curSlot b.toNat [k]))
            t i.toNat k)) ∧
      (∀ (e : Nat) (f : Flight) (rest : List Flight), s.page? p.id = some p → p.st.flight = f :: rest → f.dest = .port e → f.tok = k →
        Accepts s p t e k → (p.port e).held = [] →
        PortWrites s (.outputPortWrite p.id e) { p with st := { p.st with flight := rest } } t e k) ∧
      (∀ (e : Nat) (rest : List Token), s.page? p.id = some p → (p.port e).held = k :: rest → Accepts s p t e k →
        PortWrites s (.portHeldTokenWrite p.id e) (p.setPort e { p.port e with held := rest }) t e k)) ∧
  (
    ∀ (s : State) (p : Page) (t : Thread) (e : Nat) (k : Token), PortActs s p t → t.wait = none → s.page? p.id = some p → k.m = true → HasSlot s p t e →
      (∀ (f : Flight) (rest : List Flight), p.st.flight = f :: rest → f.dest = .port e → f.tok = k → (p.port e).held = [] →
        PortMarks s (.outputPortWrite p.id e) { p with st := { p.st with flight := rest } } t e k) ∧
      (∀ rest, (p.port e).held = k :: rest → PortMarks s (.portHeldTokenWrite p.id e) (p.setPort e { p.port e with held := rest }) t e k))

/-- R208, R210 to R212: a start token at an idle generator begins a run at its offset; `agl` sends the tokens of its access
one by one to the consumers that `k0` names; `ags` gathers an access's tokens.
R208 to R213, R215: AG_ACCESS of a generator in a run. A load access that passes R213, with room for its first token, reads its
bytes into the generator's tokens; a store access of a full set of non-null tokens, below a whole block, enters the firing's buffered stores; a copy
access stores what it reads. Each moves to the next iteration.
The model's choice: log 37, 38. -/
def Obligations.GeneratorsStartAndAccessMemory : Prop :=
  (
    ∀ (s : State) (p : Page) (i : BitVec 4) (k : Token),
      let g := p.ag s.curSlot
      let k0 := (elemConst p.image s.curSlot 0).toNat
      (g.busy = false →
        (GeneratorReady s p (.agl i) → HeadIs p s.curSlot 0 k → GeneratorMoves s (.agl i) ((consumed p s.curSlot [0]).setAg s.curSlot (runOf k))) ∧
        (GeneratorReady s p (.ags i) → HeadIs p s.curSlot 1 k →
          GeneratorMoves s (.ags i) ((consumed p s.curSlot [1]).setAg s.curSlot { runOf k with null := false })) ∧
        (GeneratorReady s p (.agc i) → HeadIs p s.curSlot 0 k → k.n = false →
          GeneratorMoves s (.agc i) ((consumed p s.curSlot [0]).setAg s.curSlot (runOf k)))) ∧
      (g.busy = true →
        (∀ rest, GeneratorReady s p (.agl i) → g.toks = k :: rest → g.null = false →
          s.roomFor (moved s p) s.curSlot [(k0 % 2 ^ 9, 1, [k]), (k0 / 2 ^ 9 % 2 ^ 9, 1, [k])] = some true →
          GeneratorMoves s (.agl i) (((p.setAg s.curSlot (if rest = [] ∧ g.pos = 1 then {} else { g with toks := rest })).sendAll
            s.curSlot s.curSlot (k0 % 2 ^ 9) [k]).sendAll s.curSlot s.curSlot (k0 / 2 ^ 9 % 2 ^ 9) [k])) ∧
        (GeneratorReady s p (.ags i) → HeadIs p s.curSlot 0 k → g.toks.length < agTokens (agSize p.image (elemWord p.image s.curSlot % 16)) →
          GeneratorMoves s (.ags i) ((consumed p s.curSlot [0]).setAg s.curSlot { g with toks := g.toks ++ [k] })))) ∧
  (
    ∀ (s s1 : State) (p : Page) (t : Thread) (n slot pa : Nat), s.page? n = some p → p.region.isSome = true → s.firingThread p = some t →
      let im := p.image
      let g := p.ag slot
      let d := elemWord im slot % 16
      let it := agIter im d g
      let z := 2 ^ agSize im d
      g.busy = true → g.pos = 0 → agFmt im d ≠ 14 →
      (elemWord im slot / 2 ^ 24 = 0x50 → g.toks = [] → g.null = false →
        (let k0 := (elemConst im slot 0).toNat
         let f : Token := { e := if agSize im d ≤ 2 then agRank im d it else 0 }
         s.roomFor p slot [(k0 % 2 ^ 9, 1, [f]), (k0 / 2 ^ 9 % 2 ^ 9, 1, [f])] = some true) →
        s.agCheck p t d it g.off .read = (s1, .ok pa) →
        let q := p.setAg slot { afterAccess im d it g with toks := accessTokens im d it (s1.readBytes pa z) }
        exec (.agAccess n slot) s = .next { s1 with pages := tabSet s1.pages p.id q }) ∧
      (elemWord im slot / 2 ^ 24 = 0x51 → g.toks.length = agTokens (agSize im d) → (∀ k ∈ g.toks, k.n = false) → agSize im d < 6 →
        s.agCheck p t d it g.off .write = (s1, .ok pa) →
        let bs := (g.toks.flatMap fun k => leBytes 4 k.payload.toNat).take z
        exec (.agAccess n slot) s = .next { s1 with
          pages := tabSet s1.pages p.id (left (p.setAg slot (if it + 1 < agTotal im d then { afterAccess im d it g with toks := [] } else {})))
          threads := tabSet s1.threads t.num { t with
            buf := accessStored pa (agAddr im d it g.off) (decide (agSpace im d = 0)) (accountOf t) bs (agTokens (agSize im d)) ++ t.buf } }) ∧
      (∀ (s2 : State) (pw : Nat),
        let dw := (elemConst im slot 0).toNat % 16
        elemWord im slot / 2 ^ 24 = 0x52 → s.agCheck p t d it g.off .read = (s1, .ok pa) → agSize im dw = agSize im d → agSize im d < 6 →
        s1.agCheck p t dw it g.off .write = (s2, .ok pw) →
        exec (.agAccess n slot) s = .next { s2 with
          pages := tabSet s2.pages p.id (left (p.setAg slot (if it + 1 < agTotal im d then afterAccess im d it g else {})))
          threads := tabSet s2.threads t.num { t with
            buf := accessStored pw (agAddr im dw it g.off) (decide (agSpace im dw = 0)) (accountOf t) (s1.readBytes pa z) (agTokens (agSize im d)) ++ t.buf } }))

/-- R160: an element without back edges that is not busy takes the markers at the heads of all its forward inputs together
and sends one marker, with the first one's payload, to each consumer.
The model's choice: log 57. -/
def Obligations.ElementsForwardMarkersTogether : Prop :=
  ∀ (s : State) (p : Page) (n slot : Nat) (k : Token) (ks : List Token), s.page? n = some p → p.region.isSome = true → slot < 64 →
    elemWord p.image slot ≠ 0 → elemWord p.image slot / 2 ^ 24 ≠ 0x54 → p.st.aligning = false → backOf p.image slot = [] →
    (forwardOf p.image slot).map (fun q => (p.queue slot q).toks.head?) = (k :: ks).map some → (∀ x ∈ k :: ks, x.m = true) →
    p.busy slot (outsOf p.image slot) = false → (∀ f ∈ p.st.flight, f.producer ≠ slot) →
    let mk : Token := { payload := k.payload, m := true }
    s.roomFor p slot ((outsOf p.image slot).map fun c => (c, 1, [mk])) = some true →
    ∃ u, exec (.markerAlign n slot) s = .next u ∧ u = { s with
      pages := tabSet s.pages p.id ((outsOf p.image slot).foldl (fun q c => q.sendAll slot slot c [mk]) (consumed p slot (forwardOf p.image slot)))
      meters := u.meters, accounts := u.accounts }

/-! ### Memory-side engines and pages -/

/-- R320, R316: on a bound MSE ring without a subscription, `ms.sub` and `ms.pull` of a record that passes its checks, fits the
handle's direction and names no ring with a subscription start one; `ms.stop` completes at once where there is none, ends a push and a pull that has
no posted slot left, and has a pull take the slots posted until now before it ends.
R318, R319, R316, R187: MSE_PUSH_SLOT of a subscription with one destination posts the payload it gathers, the trailer and the
posted count; MSE_PULL_SLOT writes a slot's payload to the tensor, nothing for a null slot, and advances the slot. Both move
the tensor on.
The model's choice: log 55, 105. -/
def Obligations.SubscriptionsStartMoveAndStop : Prop :=
  (
    ∀ (s s1 s2 : State) (t : Thread) (h : BitVec 4) (a b : BitVec 5) (x : Half) (bs cs : List Byte), Issues s t →
      let hd := t.handle h.toNat
      let va := (t.reg a.toNat).toNat
      let m := (t.reg b.toNat).toNat
      let rows := (subTensor (bs ++ cs)).rows
      hd.bound = true → hd.peerKind = 1 →
      (va % 64 = 0 → (issuedIn s t).loadGlobal (issuedBy s t) va 64 = (s1, .ok bs) → s1.loadGlobal (issuedBy s t) (va + 64) 64 = (s2, .ok cs) →
        s.subOn (t.num / 4) hd = none → (∀ k < subDests (bs ++ cs), s.subAt (subDest (bs ++ cs) (k + 1)).1 (subDest (bs ++ cs) (k + 1)).2.2 = none) →
        hd.role = subDir (bs ++ cs) → s2.subBad hd (bs ++ cs) = none → (subTensor (bs ++ cs)).none_ = false → BlockReads s (t.num / 4) hd →
        (x.toNat < rows → Subscribes s t (.msSub h a x) (subscriptionOf s t (.msSub h a x) h.toNat (bs ++ cs) x.toNat none none)) ∧
        (hd.role = 1 → 1 ≤ m → m ≤ 2 ^ 32 → 0 < rows → Subscribes s t (.msPull h a b) (subscriptionOf s t (.msPull h a b) h.toNat (bs ++ cs) 0 (some m) none) ∧
          (x.toNat < 2 ^ 20 → x.toNat % 4 = 0 →
            Subscribes s t (.msPullDone h a b x) (subscriptionOf s t (.msPullDone h a b x) h.toNat (bs ++ cs) 0 (some m) (some x.toNat))))) ∧
      (s.fenceOk t.num t.fence = true →
        ∃ u, exec (.msStop h) s = .next u ∧ (∀ n, TraceOnly (s.tile n) (u.tile n)) ∧
          (s.subOn (t.num / 4) hd = none → u.subs = s.subs ∧ u.insts = s.insts) ∧
          (∀ v, s.subOn (t.num / 4) hd = some v → v.stopping = false → v.actor = 0xFFFF →
            let posted := s.readNat (aStore v.tile + v.desc.lrcb + 8) 8
            (v.pulls = false ∨ v.finished = true ∨ posted ≤ v.posted → u.subs = s.subs.filter (fun y => decide (y.id ≠ v.id)) ∧ u.insts = s.insts) ∧
            (v.pulls = true → v.finished = false → v.posted < posted →
              ∃ k, u.subs = s.subs.map (fun y => if y.id = v.id then { v with stoppers := v.stoppers ++ [k], stopping := true, stopAt := posted } else y) ∧
                u.insts = s.insts)) ∧
          u = { s with threads := tabSet s.threads t.num (goesOn { issuedBy s t with seq := t.seq + 1 } 4), tiles := u.tiles, meters := u.meters
                       accounts := u.accounts, pubBy := some (t.part, t.inst, t.ordinal), nextCmd := s.nextCmd + 1, subs := u.subs, insts := u.insts })) ∧
  (
    ∀ (s s1 : State) (n : Nat) (u : Sub) (i : Inst), Served s n u i → s.subBlockBad u = none →
      let r := subTensor u.record
      let rps := subRps u.record
      let g := (s.mseAgent u).setInst i
      let slot := aStore u.tile + u.desc.base + u.posted % u.desc.depth * u.desc.slotB
      let moved (k : Nat) : List Sub :=
        s.subs.map fun x => if x.id = n then { u with posted := u.posted + 1, row := u.row + k, lastServed := s.steps + 1 } else x
      let counter := cellsAt (aStore u.tile + u.desc.lrcb) (leBytes 8 (u.posted + 1))
      (∀ bs ds, u.pulls = false → subDests u.record = 0 → u.row + rps < r.rows →
        g.gatherSlot u.agent r (rps * r.rowb) 0 (u.row * r.rowb) (rps * r.rowb) = (s1, .ok (bs, ds)) →
        ((s1.part u.name.part).tiles.contains u.tile) = true →
        ∃ v, exec (.msePushSlot n) s = .next v ∧ v.subs = moved rps ∧
          v.mem = s1.mem.write (cellsAt slot bs ++
            cellsAt (slot + u.desc.slotB - 64) (leBytes 4 (rps * r.rowb / 4 + slotRank r u.row rps * 2 ^ 13) ++ zeros 60) ++ counter)) ∧
      (u.pulls = true → u.row + rps < r.rows → (s.sinkTrailer u).testBit 21 = false →
        let count := s.sinkTrailer u % 2 ^ 13
        let line := u.desc.slotPa u.tile u.posted + u.desc.slotB - 64
        4 * count ≤ rps * r.rowb → s.bad line 64 = false →
        ((s.sinkTrailer u).testBit 20 = true →
          ∃ v, exec (.msePullSlot n) s = .next v ∧ v.subs = moved rps ∧ v.mem = s.mem.write counter) ∧
        ((s.sinkTrailer u).testBit 20 = false → 4 * count ≤ (r.rows - u.row) * r.rowb →
          let src : Tensor := { base := u.desc.slotOffset u.posted, space := 1, rowb := max (4 * count) 1, fmt := r.fmt, e1 := 1, e2 := 1, e3 := 1
                                s1 := 0, s2 := 0, s3 := 0, clean := true }
          moveBytes u.agent u.name.acct 0x39 src r 0 (u.row * r.rowb) (4 * count) 0 (4 * count) (g.chargeEngine u.agent line 64) = (s1, 4 * count, none) →
          ∃ v, exec (.msePullSlot n) s = .next v ∧ v.subs = moved rps ∧ v.mem = s1.mem.write counter)))

/-- R243, R245, R401: where the first waiting page of the partition would be placed on `r`, and its image and the windows of its global
descriptors read, and it passes the page checks and binds, PAGE_PLACE makes it resident there, at its first placement with its initial state,
later with the state that it was saved with, and logs the placement; no byte of memory changes. R51, R198, R245: an image that breaks a
check, or a port that does not bind, withdraws the page: its open firing is aborted, else a KIND 2 record tells the cause and the word.
R244, R245: where a resident page with no token in flight is to be removed, PAGE_EVICT keeps its state and frees its region.
The model's choice: log 42 (the region keeps RG_FLAGS and RG_RND of the page that has left it). -/
def Obligations.PagesArePlacedAndRemoved : Prop :=
  (∀ (s s1 : State) (part r : Nat) (p : Page) (t : Thread) (i : Inst) (im : List Byte), s.placement part = some (p, r) → p.part = part →
    s.pageThread p = some t → s.inst? part p.inst = some i → (s.part part).replay = [] →
    let va := i.pagesVa + 4096 * p.index
    let p1 : Page := { p with va := va }
    let pay := some (s.islandOf r, s.pageAcct p)
    s.readVirtual part i.level (dieOf r) pay 64 va = (s1, .ok im) →
    (pageBad? im i.kywinSize = none → bindBad? im t = none → ∀ (s2 : State) (ws : Tab (List Byte)),
      s1.loadWindows p1 i (dieOf r) pay im (if pgKind im = 1 then (List.range (pgAgcount im + 1)).filter fun d => agSpace im d = 0 else []) = (s2, .ok ws) →
      ∃ u, exec (.pagePlace part r) s = .next u ∧ u.mem = s.mem ∧
        (u.part part).log = (s.part part).log ++ [{ typ := 6, ordinal := p.ordinal, inst := p.inst, a := p.index + r * 65536, b := word s.dev.time }] ∧
        u.pages = tabSet s.pages p.id { p1 with
          image := im, windows := ws
          st := if p.placements = 0 then { initialRegion im with aligning := p.st.aligning, cutNum := p.st.cutNum } else p.st
          region := some r, lastRegion := some r, placed := true, placements := p.placements + 1, residentSince := s.dev.elapsed, phase := {} }) ∧
    (∀ cause value, (pageBad? im i.kywinSize = some value ∧ cause = 0x44 ∨
        pageBad? im i.kywinSize = none ∧ ∃ e, bindBad? im t = some (cause, e) ∧ value = 0xB10 + 16 * e) →
      let out : State := { s1 with pages := tabSet s1.pages p.id { p1 with wanted := false } }
      (∀ f, out.firingThread p1 = some f → exec (.pagePlace part r) s = .next (out.abortWithRecord f cause 0 (word (va + value)) p.name [])) ∧
      (out.firingThread p1 = none →
        exec (.pagePlace part r) s = .next ((out.traceTrap t cause p.name.pc p.name.seq (word (va + value))).addRecord part
          { cause := cause, kind := 2, name := p.name, value := word (va + value) }).1))) ∧
  (∀ (s : State) (part r : Nat) (p : Page), s.victim part = some p → s.page? p.id = some p → p.region = some r → p.st.flight = [] →
    ∃ u, exec (.pageEvict part) s = .next u ∧ u.mem = s.mem ∧ (u.tile r).rgFlags = p.st.flags ∧ (u.tile r).rgRnd = p.st.rnd ∧
      u.pages = tabSet s.pages p.id { p with region := none, lastRegion := some r, waitSince := s.dev.elapsed, phase := {} })

/-! ### Firings -/

/-- R236, R237: outside a region, in an instance that runs with no cut, `fire.begin` of an actor whose slots and room are present
opens a firing that keeps its registers, as an acquire; with too few it waits. `fire.end` of a firing with every command
done, every count met and no queue record, whose wanted pages are not monitored, publishes its stores and applies its takes, then the finished
slots of its pages' ports in entry order (R200), as one publication, closes it, and moves the phase and the firing count of its actor on.
The model's choice: log 6, 59. -/
def Obligations.FiringsOpenAndClose : Prop :=
  ∀ (s : State) (t : Thread) (i : Inst), Issues s t → RunsFreely s t i → t.worker = false →
    let x := i.actors.getD t.actor {}
    (t.region = none → (∀ e ∈ s.pages, e.2.st.aligning = false) →
      (s.firingReady t i = some true →
        GoesOnAs s t .fireBegin { issuedBy s t with
          snap := s.pubCount,
          region := some { isTask := false, startPc := t.pc, regs := t.regs, preds := t.preds, spill := t.spill, mode := i.mode,
                           phase := x.phase, firstCmd := s.nextCmd } }) ∧
      (s.firingReady t i = some false → ∃ u t2, exec .fireBegin s = .next u ∧ OnlyThread s u t t2 ∧ t2.num = t.num ∧ t2.state = .waiting ∧ t2.pc = t.pc)) ∧
    (∀ r, t.region = some r → r.isTask = false → r.pubs = [] → (s.tile (t.num / 4)).cmds = [] → s.subs = [] → s.shortHandle t r = none →
      (∀ p ∈ s.pagesOf t, s.page? p.id = some p ∧ (p.wanted = true → p.image ≠ [] ∧ pgMon p.image = false)) →
      t.actor < i.actors.length →
      let posted (p : Page) : List (Nat × Nat) :=
        (List.range (pgPorts p.image)).filterMap fun e => if (p.port e).finished = 0 then none else some (portHandle p.image e, (p.port e).finished)
      let takes_ := (issuedBy s t).applyTakes ((r.deferred.map fun d => match d with | .take h n => (h, n)) ++ (s.pagesOf t).flatMap posted)
      ∃ u, exec .fireEnd s = .next u ∧ u.mem = s.mem.write ((t.buf.reverse.map fun b => (b.pa, b.byte)) ++ takes_.1) ∧
        (u.thread? t.num).map unseen = some (unseen (goesOn { takes_.2 with
          buf := [], region := none, expects := t.expects.map fun e => { e with inRegion := false } } 4)) ∧
        (∀ p ∈ s.pagesOf t, u.page? p.id =
          some { p with st := { p.st with ports := p.st.ports.map fun e => (e.1, { e.2 with finished := 0, finishedMark := 0, count := 0 }) } }) ∧
        (u.inst? t.part t.inst).map (fun j => j.actors.getD t.actor {}) =
          some { x with phase := (r.phase + 1) % (i.rate r.mode t.actor).1, firings := x.firings + 1 })

/-- R256, R250: `mode.req` of another mode of the instance and `mark.inj` start a cut with their purpose and deadline;
`mode.req` of the current mode goes on; `mark.wait` of a worker goes on once that many cuts have completed, and waits until
then.
R241, R242, R240: in a firing, `page.req` of a page of the instance makes a page instance wanted, the thread's first of
that index a new one, and does nothing for one that is wanted; `page.drop` of all ones makes every page of the thread
unwanted; `rmon.rd` writes each of the seven items that its selector names, for workers too, and raises SHAPE for any other selector. -/
def Obligations.GraphRequestsAndMonitorReads : Prop :=
  (
    ∀ (s : State) (t : Thread) (i : Inst) (a b : BitVec 5), Issues s t → RunsFreely s t i → (∀ e ∈ s.threads, e.2.wait = none) →
      let v := (t.reg a.toNat).toNat
      let d := (t.reg b.toNat).toNat
      (v < 16 → v < i.nmode →
        (v = i.mode → GoesOnAs s t (.modeReq a) (issuedBy s t)) ∧
        (v ≠ i.mode → StartsCut s t i (.modeReq a) 1 v 0 (some (s.dev.elapsed + 1000 * i.mcdl)))) ∧
      (v < 4096 → d ≤ 1000000 → StartsCut s t i (.markInj a b) 32 0 v (if d = 0 then none else some (s.dev.elapsed + 1000 * d))) ∧
      (t.worker = true →
        (v ≤ i.completed.toNat → GoesOnAs s t (.markWait a) (issuedBy s t)) ∧
        (i.completed.toNat < v → ∃ u t2, exec (.markWait a) s = .next u ∧ OnlyThread s u t t2 ∧ t2.num = t.num ∧ t2.state = .waiting ∧ t2.pc = t.pc))) ∧
  (
    ∀ (s : State) (t : Thread) (i : Inst) (r : Region) (d a : BitVec 5), Issues s t → s.inst? t.part t.inst = some i →
      let v := (t.reg a.toNat).toNat
      let x := i.actors.getD t.actor {}
      let name : Name := { thread := t.num, part := t.part, inst := t.inst, ordinal := t.ordinal, actor := t.actor,
                           acct := if t.level = 2 then 64 else t.acct, pc := t.pc, seq := t.seq }
      let WithPages (ins : Instr) (pages : Tab Page) (next : Nat) : Prop :=
        ∃ u, exec ins s = .next u ∧ u = { s with
          threads := tabSet s.threads t.num (goesOn (issuedBy s t) 4), pages := pages, pageNext := next, meters := u.meters, accounts := u.accounts,
          pubBy := some (t.part, t.inst, t.ordinal) }
      (t.region = some r → r.isTask = false → v < i.npage →
        (∀ p, s.pageAt t v = some p → p.wanted = true → GoesOnAs s t (.pageReq a) (issuedBy s t)) ∧
        (s.pageAt t v = none → (s.wantedPages t).length < x.regions →
          let page : Page := { id := s.pageNext, part := t.part, inst := t.inst, ordinal := t.ordinal, index := v, wanted := true, name := name,
                               waitSince := s.dev.elapsed }
          WithPages (.pageReq a) (tabSet s.pages s.pageNext page) (s.pageNext + 1))) ∧
      (t.reg a.toNat = allOnes →
        WithPages (.pageDrop a) ((s.pagesOf t).foldl (fun ps p => tabSet ps p.id { p with wanted := false }) s.pages) s.pageNext) ∧
      (let firing := t.region.filter fun r => !r.isTask
       let Reads (item arg : Nat) (w : Word) : Prop := v = item + 256 * arg → v < 2 ^ 32 → Writes s t (.rmonRd d a) d w
       let state := match i.state with
         | .running => 0 | .cutting => 1 | .stopped => 2 | .quota => 3 | .suspendedRegions => 4 | .suspendedAstore => 5 | .ending => 6
       Reads 0 0 (if t.worker then 0 else
         word (x.phase % 16 + i.mode % 16 * 16 + (if firing.isSome then 256 else 0) + x.firings % 2 ^ 32 * 2 ^ 32)) ∧
       (∀ h < 16, Reads 1 h (if t.worker then 0 else
         word (((firing.map fun r => r.taken.toArray.getD h 0).getD 0) % 2 ^ 16 + ((i.declared i.mode t.actor x.phase h).getD 0xFFFF) * 2 ^ 16))) ∧
       (∀ n < i.npage, Reads 2 n (word (((s.pageAt t n).map fun p => p.st.flags.toNat).getD 0)) ∧
         ((s.pageAt t n).isNone → Reads 6 n 0) ∧
         ∀ p, s.pageAt t n = some p → Reads 6 n (word ((if p.wanted then 1 else 0) + (if p.region.isSome then 2 else 0) + p.region.getD 0 % 256 * 256 +
           p.placements % 2 ^ 32 * 2 ^ 32))) ∧
       Reads 3 0 (word (i.started.toNat % 2 ^ 32 + i.completed.toNat % 2 ^ 32 * 2 ^ 32)) ∧ Reads 4 0 t.lastCut ∧
       Reads 5 0 (word (state + i.mode % 16 * 256 + i.num % 2 ^ 32 * 2 ^ 32)) ∧
       (2 ^ 32 ≤ v ∨ 6 < v % 256 ∨ v % 256 ∈ [0, 3, 4, 5] ∧ 256 ≤ v ∨ v % 256 = 1 ∧ 16 ≤ v / 256 ∨ v % 256 ∈ [2, 6] ∧ i.npage ≤ v / 256 →
         exec (.rmonRd d a) s = .next (((issuedIn s t).chargeThread (issuedBy s t) 0x21 1).takeTrap (issuedBy s t) 6 (t.reg a.toNat) t.pc t.seq t.pc))))

/-! ### Queues -/

/-- R327, R147, R148, R401: outside a task, with no cut in progress, after READY, `q.claim` of a mapped work queue with a record
that Newt can read takes the record at HEAD: s[d] to s[d + 7] take its words with bit 63 of the first set, a task opens that keeps the record, HEAD moves
on, and the claim is logged; with none s[d] becomes 0. No byte of memory changes.
R328, R122, R401: outside a region, `q.pub` of an aligned record to a mapped queue with room, that the host does not feed and
nobody waits for, publishes the thread's stores, then the record at TAIL; TAIL moves on and the publication is logged. Inside
a region the record is kept for the region's end. -/
def Obligations.QueueRecordsAreTakenAndAppended : Prop :=
  (
    ∀ (s s1 : State) (t : Thread) (i : Inst) (d a : BitVec 5) (q : NewtQueue) (pa : Nat), Issues s t → RunsFreely s t i → wellFormed (.qClaim d a) = true →
      t.region = none → t.reg a.toNat ≠ allOnes → s.dev.ready = true → s.queue? t.part (t.reg a.toNat).toNat = some q → q.mode = 0 → q.requeue = [] →
      let rc := s.readBytes pa 64
      let w (k : Nat) : Word := word (leNat ((rc.drop (8 * k)).take 8))
      let entry (v : Word) : LogRec := { typ := 1, ordinal := t.ordinal, inst := t.inst, pc := t.pc, seq := t.seq, a := q.q, b := v }
      (q.head ≠ q.tail → (queueIn s t q).newtAddr t.part q.q .read (q.ring + 64 * (q.head % 2 ^ q.lsize)) 64 = (s1, .ok pa) →
        ∃ u, exec (.qClaim d a) s = .next u ∧ u.mem = s.mem ∧ LogGrows s u t.part (entry (word q.head)) ∧
          u.queues = queuesWith s { q with lastUsed := s.steps, head := q.head + 1, closed := q.closed.filter (· ≠ q.head % 2 ^ q.lsize) } ∧
          u.thread? t.num = some (goesOn { (issuedBy s t).setGroup d.toNat ((w 0 ||| word (2 ^ 63)) :: (List.range 7).map fun k => w (k + 1)) with
            snap := s.pubCount,
            region := some { isTask := true, startPc := t.pc, regs := t.regs, preds := t.preds, spill := t.spill, firstCmd := s.nextCmd,
                             queue := q.q, record := rc } } 4)) ∧
      (q.head = q.tail →
        ∃ u, exec (.qClaim d a) s = .next u ∧ u.mem = s.mem ∧ LogGrows s u t.part (entry allOnes) ∧
          u.queues = queuesWith s { q with lastUsed := s.steps } ∧ u.thread? t.num = some (goesOn ((issuedBy s t).setReg d.toNat 0) 4))) ∧
  (
    ∀ (s s1 s3 : State) (t : Thread) (a b : BitVec 5) (rc : List Byte) (q : NewtQueue) (pa : Nat), Issues s t → (s.part t.part).replay = [] →
      (t.reg b.toNat).toNat % 64 = 0 →
      ((issuedIn s t).chargeThread (issuedBy s t) 0x3A 1).loadGlobal (issuedBy s t) (t.reg b.toNat).toNat 64 = (s1, .ok rc) →
      s.queue? t.part (t.reg a.toNat).toNat = some q → q.host = false →
      let q1 : NewtQueue := { q with lastUsed := s.steps }
      (t.region = none → q.tail - q.head < 2 ^ q.lsize → q.requeue = [] → q.waiters = [] →
        ((s1.setQueue q1).publishAll (issuedBy s t)).1.newtAddr t.part q.q .write (q.ring + 64 * (q.tail % 2 ^ q.lsize)) 64 = (s3, .ok pa) →
        ∃ u, exec (.qPub a b) s = .next u ∧ u.mem = (s.mem.write (t.buf.reverse.map fun y => (y.pa, y.byte))).write (cellsAt pa rc) ∧
          u.queues = queuesWith s { q1 with tail := q.tail + 1 } ∧
          LogGrows s u t.part { typ := 2, ordinal := t.ordinal, inst := t.inst, pc := t.pc, seq := t.seq, a := q.q, b := word q.tail } ∧
          (u.thread? t.num).map unseen = some (unseen (goesOn { issuedBy s t with buf := [] } 4))) ∧
      (∀ r, t.region = some r →
        ∃ u, exec (.qPub a b) s = .next u ∧ u.mem = s.mem ∧ u.queues = queuesWith s q1 ∧ (u.part t.part).log = (s.part t.part).log ∧
          u.thread? t.num = some (goesOn { issuedBy s t with region := some { r with pubs := r.pubs ++ [(q.q, rc)] } } 4)))

/-- R329: with no cut in progress, `q.wait` of a mapped queue, no launch queue, with a record or PEND goes on and clears PEND;
otherwise the thread waits as the newest waiter. `q.note` of a mapped queue nobody waits for sets PEND and goes on.
R329, R330, R331, R374: the host's side of a mapped queue that nobody waits for, whose record Newt can write, after READY. A
notify of its function, direct or indexed, sets PEND. A host publication writes TAIL + 1 into word 7 of the record at TAIL and
moves TAIL on. The sequence write of slot NEXT of an ingest queue before its deadline stamps and publishes the slot; the deadline
publishes its null record.
R324, R325: `Q_SYNC` of a mapped queue without waiting records writes HEAD, TAIL, NEXT, PEND and, of an ingest queue, LATE and
NULLS into its descriptor; it unmaps the queue and clears KEPT unless the queue is an ingest queue or has waiters, and then it
sets KEPT. With HALT it sets HALTED too, unmaps the queue and clears KEPT. Without HALT, of a queue that is not mapped, it clears
KEPT.
The model's choice: log 66, 69. -/
def Obligations.QueueWaitsAndTheHostsSide : Prop :=
  (
    ∀ (s : State) (t : Thread) (i : Inst) (a : BitVec 5) (q : NewtQueue), Issues s t → RunsFreely s t i →
      s.queue? t.part (t.reg a.toNat).toNat = some q →
      let q1 : NewtQueue := { q with lastUsed := s.steps }
      let Ends (ins : Instr) (v : NewtQueue) (t' : Thread) : Prop :=
        ∃ u, exec ins s = .next u ∧ u = { s with
          threads := tabSet s.threads t.num t', queues := queuesWith s v, meters := u.meters, accounts := u.accounts,
          pubBy := some (t.part, t.inst, t.ordinal) }
      (q.mode ≠ 1 → q.head < q.tail ∨ q.pend = true → Ends (.qWait a) { q1 with pend := false } (goesOn (issuedBy s t) 4)) ∧
      (q.mode ≠ 1 → q.tail ≤ q.head → q.pend = false →
        Ends (.qWait a) { q1 with waiters := q.waiters ++ [t.num] }
          { issuedBy s t with state := .waiting, waitCount := 0, wait := some { instr := .qWait a, since := s.dev.time } }) ∧
      (q.waiters = [] → Ends (.qNote a) { q1 with pend := true } (goesOn (issuedBy s t) 4))) ∧
  (
    ∀ (s s1 : State) (part n fn pa : Nat) (q : NewtQueue), s.queue? part n = some q → (s.part part).replay = [] →
      let q1 : NewtQueue := { q with lastUsed := s.steps }
      let used := s.setQueue q1
      let deadline := q.t0 + q.next * q.period + q.slack
      let next : NewtQueue := { q with
        closed := (q.next % 2 ^ q.lsize) :: q.closed, tail := q.tail + 1, next := q.next + 1, arrived := [] }
      (s.dev.ready = true → (s.func fn).part = some part → n < (s.part part).qCount → q.waiters = [] →
        (n < 4096 → exec (.queueNotify fn n) s = .next { s with queues := queuesWith s { q1 with pend := true } }) ∧
        (n < 2 ^ 16 → exec (.queueNotifyIndexed fn (word n)) s = .next { s with queues := queuesWith s { q1 with pend := true } })) ∧
      (s.dev.ready = true → q.host = true → q.mode ≠ 2 → q.waiters = [] →
        used.newtAddr part n .write (q.ring + 64 * (q.tail % 2 ^ q.lsize)) 64 = (s1, .ok pa) →
        ∃ u, exec (.hostPublication part n) s = .next u ∧ u.mem = s.mem.write (cellsAt (pa + 56) (leBytes 4 (q.tail + 1))) ∧
          u.queues = queuesWith s { q1 with tail := q.tail + 1 }) ∧
      (s.dev.ready = true → q.mode = 2 → q.waiters = [] → q.arrived = [] → s.dev.time < deadline → (q.next % 2 ^ q.lsize) ∉ q.closed →
        used.newtAddr part n .write (q.ring + 64 * (q.next % 2 ^ q.lsize)) 64 = (s1, .ok pa) →
        ∃ u, exec (.ingestArrival part n q.next) s = .next u ∧ u.queues = queuesWith s { next with lastUsed := s.steps } ∧
          u.mem = s.mem.write (cellsAt (pa + 48) (leBytes 8 s.dev.time) ++ cellsAt (pa + 56) (leBytes 4 (q.next + 1)))) ∧
      (q.mode = 2 → q.waiters = [] → q.arrived = [] → deadline ≤ s.dev.time → (q.next % 2 ^ q.lsize) ∉ q.closed →
        s.newtAddr part n .write (q.ring + 64 * (q.next % 2 ^ q.lsize)) 64 = (s1, .ok pa) →
        ∃ u, exec (.ingestDeadline part n) s = .next u ∧ u.queues = queuesWith s { next with nulls := (q.nulls + 1) % 2 ^ 32 } ∧
          u.mem = s.mem.write (cellsAt pa (leBytes 8 (q.next % 2 ^ 32) ++ zeros 40 ++ leBytes 8 deadline ++ leBytes 8 (2 ^ 32)))) ∧
      (n < (s.part part).qCount → q.requeue = [] → s.newtAddr part n .write (s.descVa part n) 64 = (s1, .ok pa) →
        let w1 := s.readNat (pa + 8) 8
        let pend := w1 - (if w1.testBit 10 then 2 ^ 10 else 0) + (if q.pend then 2 ^ 10 else 0)
        let written (w : Nat) : List (Nat × Byte) := cellsAt (pa + 8) (leBytes 8 w) ++ cellsAt (pa + 16) (leBytes 8 q.head ++ leBytes 8 q.tail) ++
          (if q.mode = 2 then cellsAt (pa + 48) (leBytes 4 q.late ++ leBytes 4 q.nulls) else []) ++ cellsAt (pa + 56) (leBytes 8 q.next)
        (q.waiters = [] → q.mode ≠ 2 → ∃ u, exec (.qSync part n) s = .next u ∧ (u.part part).qKept = false ∧ u.queue? part n = none ∧
          u.mem = s.mem.write (written pend)) ∧
        (q.waiters ≠ [] ∨ q.mode = 2 → ∃ u, exec (.qSync part n) s = .next u ∧ (u.part part).qKept = true ∧ u.queues = s.queues ∧
          u.mem = s.mem.write (written pend)) ∧
        (q.waiters = [] → ∃ u, exec (.qSyncHalt part n) s = .next u ∧ (u.part part).qKept = false ∧ u.queue? part n = none ∧
          u.mem = s.mem.write (written (pend + (if w1.testBit 18 then 0 else 2 ^ 18)))))) ∧
  (∀ (s : State) (part n : Nat), s.queue? part n = none → n < (s.part part).qCount →
    exec (.qSync part n) s = .next (s.setPart part { s.part part with qKept := false }))

/-! ### Launches, instances and contexts -/

/-- R228 to R233: after READY and outside a region, `gr.launch` of an aligned block that can be read, a tile base below 256, and an image and
template that pass their checks, with a tile for every actor, completes: it creates the instance, its threads with their handles, and
the rings' control blocks and initial slots, starts the subscriptions of its MSE actors from their records, and s[d] takes the instance number, as an
acquire. Where no placement is found, s[d] becomes 0, no instance starts and no memory changes. A queue launch does the same with the
record at HEAD of a mapped launch queue, takes the record and logs the instance number.
R225, R229 steps 4 and 7: what sets the rings up is what their entries say, with the initial slots read from `.data`; an MSE actor whose ring ends
at a thread serves it from its record's start, under its own name.
The model's choice: log 20 (the level of a queue launch is its owner's function's), 60, 132. -/
def Obligations.LaunchesAnswerTheInstanceNumber : Prop :=
  (∀ (s s1 : State) (t : Thread) (d a b : BitVec 5) (bs : List Byte), Issues s t → t.region = none → s.dev.ready = true →
    (t.reg a.toNat).toNat % 64 = 0 → (t.reg b.toNat).toNat < 256 →
    ((issuedIn s t).chargeThread (issuedBy s t) 0x21 1).loadGlobal (issuedBy s t) (t.reg a.toNat).toNat 64 = (s1, .ok bs) →
    let tb := (t.reg b.toNat).toNat
    let w : Launcher := ⟨t.level, t.acct, t.prio, dieOf (t.num / 4), s1.islandOf (t.num / 4)⟩
    let base := if tb = 0 then field bs 0x18 1 else tb
    (∀ (s2 : State) (i : Inst) (cells : List (Nat × Byte)), LaunchPasses s1 s2 t.part w bs base i cells →
      let c := s2.create i w (some (t.part, t.inst, t.ordinal)) cells
      let GoesOn (v : State) : Prop := exec (.grLaunch d a b) s = .next { v with
        threads := tabSet v.threads t.num (goesOn ({ issuedBy s t with snap := v.pubCount }.setReg d.toNat (word i.num)) 4) }
      (∀ s3, c.startActors i w (List.range i.actors.length) = .ok s3 → GoesOn (s3.startInst i)) ∧
      (NewNumber s i → (∀ x ∈ i.actors, x.kind = 0 ∨ x.kind = 3) → ∃ v, GoesOn v ∧ Starts_ c s v i t.prio cells)) ∧
    (∀ (s2 : State) (va : Nat), s1.launch t.part bs (t.reg a.toNat).toNat w (if tb = 0 then none else some tb) (some (t.part, t.inst, t.ordinal)) =
        Launched.refused s2 1 va → bs.length = 64 → leNat ((bs.drop 16).take 8) = 0 →
      s2.insts = s.insts ∧ s2.mem = s.mem ∧ s2.threads = s.threads ∧
      exec (.grLaunch d a b) s = .next { s2 with
        threads := tabSet s2.threads t.num (goesOn ({ issuedBy s t with snap := s2.pubCount }.setReg d.toNat 0) 4) })) ∧
  (∀ (s s1 s2 : State) (part n pa : Nat) (q : NewtQueue) (i : Inst) (cells : List (Nat × Byte)), s.queue? part n = some q → q.mode = 1 → q.head ≠ q.tail →
    s.dev.ready = true → (s.part part).replay = [] → q.requeue = [] →
    s.newtAddr part n .read (q.ring + 64 * (q.head % 2 ^ q.lsize)) 64 = (s1, .ok pa) →
    let die := s.newtDie part n
    let w : Launcher := ⟨(s.func q.owner).level, q.owner, q.prio, die, newtIsland die⟩
    let raw := s1.readBytes pa 64
    let bs := if q.host then raw.take 56 ++ zeros 4 ++ raw.drop 60 else raw
    LaunchPasses ((s1.setQueue { q with head := q.head + 1 }).chargeOwner q) s2 part w bs (field bs 0x18 1) i cells →
    let c := s2.create i w none cells
    let Logged (v : State) : Prop := ∃ u, exec (.queueLaunch part n) s = .next u ∧ LogGrows v u part { typ := 9, a := n, b := word i.num } ∧
      u = { v with parts := u.parts }
    (∀ s3, c.startActors i w (List.range i.actors.length) = .ok s3 → Logged (s3.startInst i)) ∧
    (NewNumber s i → (∀ x ∈ i.actors, x.kind = 0 ∨ x.kind = 3) → ∃ v, Logged v ∧ Starts_ c s v i q.prio cells ∧
      v.queues = queuesWith s { q with head := q.head + 1 })) ∧
  (∀ (s s1 : State) (i : Inst) (w : Launcher) (rings : List Ring) (cells : List (Nat × Byte)), s.readInits i w rings = (s1, .ok cells) →
    ∃ inits : List (List Byte), inits.length = rings.length ∧ cells = (rings.zip inits).flatMap (fun x => ringSetUp i x.1 x.2) ∧
      ∀ k (hk : k < rings.length), ∃ z z' : State, z.mem = s.mem ∧
        z.readSpan i.part w (i.dataVa + rings[k].init) (rings[k].delay * 64 * rings[k].slot64) = (z', .ok (inits.getD k []))) ∧
  (∀ (s s1 : State) (i : Inst) (w : Launcher) (a h ix e k : Nat) (r : Ring) (t : Thread) (bs : List Byte),
    let o := if e = 1 then r.cons else r.prod
    let hd := t.handle k
    ((List.range 16).findSome? fun h => (i.ringOf a h).map fun r => (h, r)) = some (h, ix, r, e) → s.actorThread i.part i.num o = some t →
    ((List.range 16).find? fun k => (i.ringOf o k).any fun q => decide (q.1 = ix ∧ q.2.2 = 1 - e)) = some k →
    s.readSpan i.part w (i.dataVa + (i.actors.getD a {}).sub) 128 = (s1, .ok bs) →
    (hd.role = subDir bs → s1.ringBusy (t.num / 4) hd bs = false → s1.subBad hd bs = none → (subTensor bs).none_ = false → 0 < (subTensor bs).rows →
      s.startActor i w a = .ok { s1 with nextCmd := s1.nextCmd + 1, subs := s1.subs ++ [{
        id := s.nextCmd, name := { part := i.part, inst := i.num, actor := a, acct := i.acct }, mse := hd.peer, thread := none, actor := a
        tileActor := o, level := i.level, handle := h, desc := hd, tile := t.num / 4, record := bs, row := 0
        posted := s.readNat (aStore (t.num / 4) + hd.lrcb) 8, left := none, done := none, cmd := s.nextCmd, fence := 0 }] }) ∧
    (hd.role ≠ subDir bs ∨ s1.ringBusy (t.num / 4) hd bs = true ∨ (s1.subBad hd bs).isSome = true →
      s.startActor i w a = .error (.refused (i.dataVa + (i.actors.getD a {}).sub))))

/-- R234, R235, R228: an ENDING instance without threads and subscriptions is gone after INSTANCE_END, which writes its completion
word last; `MK_INSTCTL` CMD 2 of an instance without threads makes it ENDING with code 6.
R235, R247, R248, R250: PREEMPT of a running instance, by `MK_INSTCTL` or the scheduler, starts a PREEMPT cut with the partition's
deadline. A stopped instance that may run is RUNNING after CMD 1, and its stopped thread, whose context passes and for which the
lowest slot of its tile is free, is Ready in a new phase; a waiting one that the scheduler takes is RUNNING.
The model's choice: log 62, 110. -/
def Obligations.InstancesStopResumeAndEnd : Prop :=
  (
    ∀ (s s1 : State) (i : Inst) (pa : Nat), s.inst? i.part i.num = some i → Bare s i.part i.num →
      (i.state = .ending →
        let gone : State := { s with insts := s.insts.filter fun j => decide (¬(j.part = i.part ∧ j.num = i.num)) }
        (i.doneVa = 0 → exec (.instanceEnd i.part i.num) s = .next gone) ∧
        (i.doneVa ≠ 0 → gone.translate 0 i.part i.level true .write i.doneVa 8 = (s1, .ok pa) → s.badBlocks = [] →
          ∃ u, exec (.instanceEnd i.part i.num) s = .next u ∧ u.inst? i.part i.num = none ∧
            u.mem = s.mem.write (cellsAt pa (leBytes 8 (i.endCode * 2 ^ 32 + i.num))))) ∧
      (∃ u, exec (.instctlEnd i.part i.num) s = .next u ∧
        u = { s with insts := s.insts.map fun j => if j.part = i.part ∧ j.num = i.num then { i with
          state := .ending, endCode := 6, cut := none, pending := none, goOn := none, saved := [],
          actors := i.actors.map fun x => { x with ended := true } } else j })) ∧
  (
    ∀ (s : State) (i : Inst),
      let soon := some (s.dev.elapsed + 1000 * (s.part i.part).pdl)
      let quiet := i.pending = none ∧ i.goOn = none ∧ i.cut = none
      (Undisturbed s i → ∃ u, exec (.instctlPreempt i.part i.num) s = .next u ∧ u.mem = s.mem ∧ CutStarts u i 2 soon) ∧
      (∀ w : Inst, Undisturbed s i → s.insts = [w, i] → w.part = i.part → w.num ≠ i.num → i.prio < w.prio → s.waits w = true → w.state = .stopped →
        s.makeRoom w = none → ∃ u, exec (.schedulerPreempt i.part i.num) s = .next u ∧ u.mem = s.mem ∧ CutStarts u i 2 soon) ∧
      (∀ t : Thread, s.inst? i.part i.num = some i → i.state = .stopped → i.resizeWait = false → quiet → s.instExhausted i = false →
        i.rmin ≤ (s.part i.part).tiles.length → i.saved = [] → s.threads = [(t.num, t)] → t.num < 768 → s.restoreSlot t = t.num → t.part = i.part → t.inst = i.num → t.state = .stopped →
        t.recordId = 0 → t.task = none → t.ctxEdits = [] → s.contextBad? t = none →
        ∃ u, exec (.instctlResume i.part i.num) s = .next u ∧ u.mem = s.mem ∧
          u.inst? i.part i.num = some { i with state := .running, schedStopped := false, diverged := false } ∧
          u.thread? t.num = some { t with state := .ready, wait := none, snap := s.pubCount, fetchSnap := s.pubCount }) ∧
      (∀ (s1 : State) (k : Inst), s.insts = [i] → s.canRun i = true → s.instExhausted i = false → s.makeRoom i = some s1 → s1.inst? i.part i.num = some k →
        k.pending = none → k.goOn = none → k.cut = none → s1.instExhausted k = false → k.rmin ≤ (s1.part i.part).tiles.length →
        ∃ u j, exec (.schedulerResume i.part i.num) s = .next u ∧ u.inst? i.part i.num = some j ∧ j.state = .running))

/-- R252, R255: the marker of the cut in progress at Head of a back edge of an aligned actor is taken: its slot is advanced and
the cut knows of it. A cut whose deadline has passed, of an instance without threads, is forced: it counts as completed, the
instance is STOPPED for a PREEMPT, and a record of MARKER_FORCED is owed.
R84, R114, R137, R193, R256, R278: WAKE lets a Waiting thread with no trap to take look again. A `ring.wait` whose slots have come completes as an
acquire, an `mx.wait` without commands left and behind no open fence completes with its sequence number, a `mark.wait` whose count is reached goes on;
each goes on waiting otherwise. -/
def Obligations.MarkersForcedCutsAndWakes : Prop :=
  (
    (∀ (s : State) (i : Inst) (c : Cut) (t : Thread) (h : Nat) (r : Ring), s.inst? i.part i.num = some i → i.cut = some c → i.state = .cutting →
      s.actorThread i.part i.num t.actor = some t → (h, r) ∈ i.ends t.actor 0 → r.back = true →
      (if t.worker then t.aligned else (i.actors.getD t.actor {}).aligned) = true →
      let hd := t.handle h
      hd.p = 0 → h < 16 → s.headMarker (t.num / 4) hd = some (c.num % 1024) → hd.role = 0 →
      ∃ u, exec (.backEdgeMarkerTake i.part i.num t.actor h) s = .next u ∧
        u.mem = s.mem.write (counterCells (t.num / 4) 1 hd) ∧
        (u.thread? t.num).map (fun x => (x.handle h).l) = some (hd.l + 1) ∧
        (u.inst? i.part i.num).map Inst.cut = some (some { c with backTaken := (t.actor, h) :: c.backTaken })) ∧
    (∀ (s : State) (i : Inst) (c : Cut) (d : Nat), s.inst? i.part i.num = some i → Bare s i.part i.num → i.state = .cutting → i.cut = some c → c.deadline = some d →
      d ≤ s.dev.elapsed → c.purposes = 2 → (s.part i.part).recRing = 0 →
      ∃ u j r, exec (.forcedCut i.part i.num) s = .next u ∧ u.mem = s.mem ∧ u.inst? i.part i.num = some j ∧ j.state = .stopped ∧ j.cut = none ∧
        j.completed = i.completed + 1 ∧ (u.part i.part).backlog = (s.part i.part).backlog ++ [r] ∧ r.cause = 0x81 ∧ r.kind = 2 ∧
        r.value = word (i.num % 2 ^ 32 + c.num % 1024 * 2 ^ 32 + 2 * 2 ^ 42))) ∧
  (
    ∀ (s : State) (n : Nat) (t : Thread) (w : Wait), s.thread? n = some t → t.state = .waiting → t.wait = some w → (t.pending = [] ∨ t.hnd = true) →
      let By (u : State) : State := { u with pubBy := some (t.part, t.inst, t.ordinal) }
      let Goes (t' : Thread) : Prop := exec (.wake n) s = .next (By { s with threads := tabSet s.threads t.num (goesOn t' 4) })
      let Stays : Prop := ∃ w2, exec (.wake n) s = .next (By { s with threads := tabSet s.threads t.num { t with waitCount := 0, wait := some w2 } })
      (∀ h a av, w.instr = .ringWait h a → Standing s t h 0 av →
        ((t.reg a.toNat).toNat ≤ av → Goes { t with snap := s.pubCount }) ∧ (av < (t.reg a.toNat).toNat → Stays)) ∧
      (∀ a i, w.instr = .markWait a → s.inst? t.part t.inst = some i →
        ((t.reg a.toNat).toNat ≤ i.completed.toNat → Goes t) ∧ (i.completed.toNat < (t.reg a.toNat).toNat → Stays)) ∧
      (w.instr = .mxWait →
        ((∀ c ∈ (s.tile (t.num / 4)).mxQ, c.name.thread ≠ t.num) → s.fenceOk t.num t.fence = true → (s.tile (t.num / 4)).trcCtl = 0 → Goes { t with snap := s.pubCount, seq := t.seq + 1 }) ∧
        ((∃ c ∈ (s.tile (t.num / 4)).mxQ, c.name.thread = t.num) → Stays)))

/-- R366, R364, R367: a write of `TC_CTXDATA` goes to the selected word of the image of the selected Stopped thread, and a read or a
write moves the offset on. An identifier written to `TC_XDONE` restores the stopped thread that it names, if its context
passes the check: it is Ready in a new phase, and the identifier is owed no more; a thread that belongs to no instance, or whose actor
has other threads, takes the lowest slot of its own tile that is free once it has left its own.
The model's choice: log 13 (each thread has a TC_CTXSEL of its own), 110. -/
def Obligations.ContextsAreEditedAndRestored : Prop :=
  (∀ (s : State) (n : Nat) (t : Thread), s.thread? n = some t →
    exec (.ctxdataRead n) s = .next { s with threads := tabSet s.threads t.num { t with ctxSel := nextOffset t.ctxSel } }) ∧
  (∀ (s : State) (n : Nat) (t x : Thread) (v : Word), s.thread? n = some t → s.selected t = some x → x.num ≠ t.num →
    exec (.ctxdataWrite n v) s = .next { s with
      threads := tabSet (tabSet s.threads x.num { x with ctxEdits := tabSet x.ctxEdits (t.ctxSel.toNat / 2 ^ 48 % 256) v }) t.num
        { t with ctxSel := nextOffset t.ctxSel } }) ∧
  (∀ (s : State) (t : Thread) (part id : Nat) (rest : List (Nat × Owed)), (s.part part).owed = (id, .thread t.num) :: rest →
    (∀ e ∈ rest, e.1 ≠ id) → s.thread? t.num = some t → t.recordId = id → t.part = part →
    (s.inst? part t.inst = none ∨ (∃ i, s.inst? part t.inst = some i ∧ i.state = .running) ∧
      ∃ u ∈ s.threadsOf part t.inst, u.actor = t.actor ∧ u.ordinal ≠ t.ordinal) →
    t.task = none → t.ctxEdits = [] →
    let restored := s.setPart part { s.part part with owed := rest }
    restored.contextBad? { t with recordId := 0 } = none →
    (s.restoreSlot t = t.num → exec (.xdone part id) s = .next { restored with
      threads := tabSet s.threads t.num { t with recordId := 0, state := .ready, wait := none, snap := s.pubCount, fetchSnap := s.pubCount } }) ∧
    (s.restoreSlot t ≠ t.num →
      ∃ u x, exec (.xdone part id) s = .next u ∧ u.mem = s.mem ∧ u.thread? t.num = none ∧ u.thread? (s.restoreSlot t) = some x ∧
        x.num = s.restoreSlot t ∧ x.state = .ready ∧ x.wait = none ∧ x.recordId = 0 ∧ x.pc = t.pc ∧ x.regs = t.regs ∧ x.preds = t.preds ∧ x.sw = t.sw ∧
        x.seq = t.seq ∧ x.handles = t.handles ∧ x.snap = s.pubCount ∧ x.fetchSnap = s.pubCount))

/-! ### Energy -/

/-- R348 to R351, R401, R403: outside a replay, `en.rd` writes an item of a function's account that the thread may name and logs
it; `en.sub` of an amount within a limited balance takes it from the balance, returns it to a limited pool, and writes it, and
writes 0 where the balance is less or not limited; `en.set` at level S or above stores a reserve, a low mark, a weight of at
least 1, clears status flags, or, where the pool has no limit, a balance with its reserve, if the reserve's 48 bits hold that.
R336, R346, R338: at the flush that each 10 µs bring, an account whose accumulator is the meter's only one takes its whole
nanojoules and keeps the rest. After the end of an interval every account's mirrors hold its totals, its dynamic energy of
the interval starts from zero, and the residue of the package is what the accounts and the shared pool do not hold. The trim
that each 10 s bring gives each island a factor in [0.9, 1.1] and waits for the next interval.
The model's choice: log 93, 115, 120. -/
def Obligations.EnergyIsReadSetAndFlushed : Prop :=
  (
    ∀ (s : State) (t : Thread) (d a b : BitVec 5) (item acct : Nat), Issues s t → NoSpill s t → (s.part t.part).replay = [] →
      Names s t (t.reg a.toNat) item acct →
      let v := t.reg b.toNat
      let x := s.account acct
      let p := s.part t.part
      let entry (w : Word) : LogRec := { typ := 8, ordinal := t.ordinal, inst := t.inst, pc := t.pc, seq := t.seq, b := w }
      let writes (w : Word) : Thread := (issuedBy s t).setReg d.toNat w
      let set_ (y : Account) : Prop := EnergyNext s t (.enSet a b) (issuedBy s t) (tabSet s.accounts acct y) s.parts
      EnergyNext s t (.enRd d a) (writes (itemOf s t.part item acct)) s.accounts
        (tabSet s.parts t.part (logged s t.part (entry (itemOf s t.part item acct)) p.pool)) ∧
      (item = 1 →
        (x.quota ≠ allOnes → v ≠ 0 → v.toNat ≤ x.quota.toNat →
          ∃ u, exec (.enSub d a b) s = .next u ∧ u.thread? t.num = some (goesOn (writes v) 4) ∧ u.mem = s.mem ∧
            (u.account acct).quota = x.quota - v ∧ 
            (u.part t.part).pool = (if p.pool = allOnes then allOnes else word (min (p.pool.toNat + v.toNat) (2 ^ 64 - 2))) ∧
            LogGrows s u t.part (entry v)) ∧
        (x.quota = allOnes ∨ x.quota.toNat < v.toNat ∨ v = 0 →
          EnergyNext s t (.enSub d a b) (writes 0) s.accounts (tabSet s.parts t.part (logged s t.part (entry 0) p.pool))) ∧
        (1 ≤ t.level → p.pool = allOnes → v ≠ 0 → v = allOnes ∨ v.toNat / 200 < 2 ^ 48 → set_ { x with
          quota := v, reserve := word (if v = allOnes then 0 else max (v.toNat / 200) 1000000), status := x.status &&& ~~~(1 : Word) })) ∧
      (1 ≤ t.level → item = 2 → v.toNat < 2 ^ 48 → set_ { x with reserve := v }) ∧
      (1 ≤ t.level → item = 4 → v.toNat < 2 ^ 5 → v.toNat % 2 = 0 → set_ { x with status := x.status &&& ~~~v }) ∧
      (1 ≤ t.level → item = 5 → set_ { x with low := v }) ∧
      (1 ≤ t.level → item = 6 → v.toNat < 2 ^ 16 → set_ { x with weight := if v = 0 then 1 else v })) ∧
  (
    (∀ (s : State) (m acct content : Nat), tabGet [] s.meters m = [(acct, content)] → content ≠ 0 →
      (tabGet 0 s.dev.meterFlushed m / 10000 < s.dev.elapsed / 10000 →
        ∃ y, exec (.meterFlush m) s = .next { s with
            accounts := tabSet s.accounts acct y, meters := tabSet s.meters m [(acct, 0)]
            dev := { s.dev with meterFlushed := tabSet s.dev.meterFlushed m s.dev.elapsed } } ∧
          Flushed (s.account acct) y content) ∧
      (s.dev.elapsed / 10000 ≤ tabGet 0 s.dev.meterFlushed m / 10000 → exec (.meterFlush m) s = .next s)) ∧
    (∀ s : State, s.dev.interval < s.dev.time / 1000000 →
      ∃ u, exec .intervalEnd s = .next u ∧ u.mem = s.mem ∧ u.threads = s.threads ∧ u.dev.interval = s.dev.time / 1000000 ∧
        u.dev.calGen = s.dev.calGen + (if s.dev.trimDue then 1 else 0) ∧ u.dev.trimDue = false ∧
        (∀ a, a < 65 → (u.account a).mirAcct = (u.account a).acct ∧ (u.account a).mirQuota = (u.account a).quota ∧ (u.account a).dynNow = 0) ∧
        u.dev.resid + (List.range 65).foldl (fun (w : Word) a => w + (u.account a).acct) 0 + u.dev.spool = u.dev.pkg) ∧
    (∀ s : State, s.dev.cal = true → s.dev.trimLast + 10000000000 ≤ s.dev.elapsed →
      ∃ u, exec .calibrationTrim s = .next u ∧ u.dev.trimDue = true ∧ u.dev.calGen = s.dev.calGen ∧ u.dev.trims = s.dev.trims ∧
        (∀ e ∈ u.dev.trimNext, 900000 ≤ e.2 ∧ e.2 ≤ 1100000) ∧ ((∀ p, (s.part p).recRing = 0) → u.mem = s.mem) ∧
        u.threads.map (fun e => unseen e.2) = s.threads.map fun e => unseen e.2) ∧
    (∀ s : State, s.dev.elapsed < s.dev.trimLast + 10000000000 → exec .calibrationTrim s = .next s))

/-! ### Traces and checkpoints -/

/-- R386, R387, R389, R392, R394: `trc.mark` and `trc.frz` go on and change the trace alone; `trc.mark` adds its MARK record where
the kind and the thread are enabled, the trace runs and the cycle has room; `trc.frz` on a running trace makes a freeze with cause
4 due. A freeze that is due is made by TRACE_FREEZE with its FREEZE record. A read of `DB_TRCDATA` moves the selection to the next
word. Writing one to FROZEN of `DB_TRCSTAT` clears FROZEN and DROP and sets WPTR to 0. A sample of a tile with a period changes
traces alone, and adds the SAMPLE record of the tile's only thread under the same conditions; with period 0 nothing happens.
The model's choice: log 4, 73, 112. -/
def Obligations.TraceUnitsRecordAndFreeze : Prop :=
  (∀ (s : State) (t : Thread) (a : BitVec 5) (x : BitVec 6), Issues s t →
    (∃ u, exec (.trcMark a x) s = .next u ∧ ThreadAndTrace s u t (goesOn (issuedBy s t) 4) ∧
      (TraceRuns (s.tile (t.num / 4)) 7 (t.num % 4) → (u.tile (t.num / 4)).trace = (s.tile (t.num / 4)).trace ++
        [⟨word (7 + t.num % 4 * 16 + x.toNat * 256 + s.dev.time % 2 ^ 48 * 65536), t.pc, word (t.seq.toNat + t.ordinal % 2 ^ 16 * 2 ^ 32), t.reg a.toNat⟩])) ∧
    (∃ u, exec .trcFrz s = .next u ∧ ThreadAndTrace s u t (goesOn (issuedBy s t) 4) ∧
      ((s.tile (t.num / 4)).trcCtl.getLsbD 0 = true → (s.tile (t.num / 4)).trcFrozen = false → (s.tile (t.num / 4)).trcPost = none →
        (u.tile (t.num / 4)).trcPost = some (4, 0)))) ∧
  (∀ (s : State) (n : Nat), let b := s.tile n
    (∀ c, b.trcFrozen = false → b.trcPost = some (c, 0) →
      let r : TraceRec := ⟨word (10 + c * 256 + s.dev.time % 2 ^ 48 * 65536), 0, 0, word b.trcDrop⟩
      exec (.traceFreeze n) s = .next { s with tiles := tabSet s.tiles n { b with
        trace := if b.trcWptr < b.trace.length then b.trace.set b.trcWptr r else b.trace ++ [r], trcWptr := (b.trcWptr + 1) % 2048,
        trcFrozen := true, trcCause := c, trcPost := none } }) ∧
    ((∀ c, b.trcPost ≠ some (c, 0)) → exec (.traceFreeze n) s = .next s) ∧
    exec (.traceUnfreeze n) s = .next { s with tiles := tabSet s.tiles n { b with trcFrozen := false, trcWptr := 0, trcDrop := 0 } } ∧
    (∀ k, k < 8192 → b.trcSel = word (k / 4 + k % 4 * 2 ^ 11) →
      exec (.trcdataRead n) s = .next { s with tiles := tabSet s.tiles n { b with
        trcSel := word ((k + 1) % 8192 / 4 + (k + 1) % 4 * 2 ^ 11) } }) ∧
    (b.sampleCfg.toNat % 2 ^ 32 = 0 → exec (.sample n) s = .next s) ∧
    (∃ u, exec (.sample n) s = .next u ∧ u = { s with tiles := u.tiles, fresh := u.fresh } ∧ (∀ k, TraceOnly (s.tile k) (u.tile k)) ∧
      ∀ k t, b.sampleCfg.toNat % 2 ^ 32 ≠ 0 → k < 4 → t.num = 4 * n + k → s.thread? (4 * n + k) = some t →
        (∀ j, j < 4 → j ≠ k → s.thread? (4 * n + j) = none) → TraceRuns b 8 k →
        ∃ since, (u.tile n).trace = b.trace ++
          [⟨word (8 + k * 16 + (match t.state with | .ready => 0 | .waiting => 1 | .stopped => 2) * 256 + s.dev.time % 2 ^ 48 * 65536), t.pc,
            word ((s.nextSeq t).toNat + t.ordinal % 2 ^ 16 * 2 ^ 32), since⟩]))

/-- R397, R398, R400: `ckpt.req` at level S or above, and the timer once its period has passed, start a checkpoint where none is
in progress, with a CKPT cut of the partition's instance, where it has one that runs; `ckpt.req` joins one in progress, and the
timer counts it in SKIP. With its cuts done, of a partition with no mapped queue, the checkpoint takes its image under the next
identifier; a chunk goes to the tier's write position as far as the limit lets it, which moves CK_TIERWR on; with every chunk
written the checkpoint is complete and CK_LAST names it.
The model's choice: log 76, 78, 117. -/
def Obligations.CheckpointsStartAndComplete : Prop :=
  (∀ (s : State) (t : Thread) (i : Inst), Issues s t → 1 ≤ t.level → (s.part t.part).ckBusy = false → s.insts = [i] → i.part = t.part → Undisturbed s i →
    let due := some (s.dev.elapsed + 1000 * wbits (s.part t.part).ckPeriod 24 20)
    ∃ u, exec .ckptReq s = .next u ∧ u.mem = s.mem ∧ (u.part t.part).ckBusy = true ∧ (u.part t.part).ckStart = s.dev.time ∧ CutStarts u i 8 due) ∧
  (∀ (s : State) (t : Thread), Issues s t → 1 ≤ t.level → (s.part t.part).ckBusy = true → GoesOnAs s t .ckptReq (issuedBy s t)) ∧
  (∀ (s : State) (part : Nat), let p := s.part part
    let period := 1000000 * wbits p.ckPeriod 0 24
    p.exists_ = true → 0 < period → p.ckStart + period ≤ s.dev.time →
    (p.ckBusy = false → (∀ i ∈ s.insts, i.part ≠ part) →
      exec (.checkpointTimer part) s = .next { s with parts := tabSet s.parts part { p with
        ckBusy := true, ckStart := s.dev.time, ckFull := p.ckCtl.getLsbD 0, ckCtl := p.ckCtl &&& ~~~(1 : Word), ckImage := none, ckInsts := [] } }) ∧
    (∀ i, p.ckBusy = false → s.insts = [i] → i.part = part → Undisturbed s i →
      ∃ u, exec (.checkpointTimer part) s = .next u ∧ u.mem = s.mem ∧ (u.part part).ckBusy = true ∧ (u.part part).ckStart = s.dev.time ∧
        CutStarts u i 8 (some (s.dev.elapsed + 1000 * wbits p.ckPeriod 24 20))) ∧
    (p.ckBusy = true → ∃ q, exec (.checkpointTimer part) s = .next { s with parts := tabSet s.parts part q } ∧
      q.ckSkip = (p.ckSkip + 1) % 2 ^ 16 ∧ q.ckBusy = true)) ∧
  (∀ (s : State) (part : Nat), let p := s.part part
    p.ckBusy = true → p.logBlock = none →
    (p.ckImage = none → (∀ i ∈ s.insts, i.part = part → i.ckWaits = false) → (∀ q ∈ s.queues, q.part ≠ part) →
      ∃ u c, exec (.checkpointImageWrite part) s = .next u ∧ u.mem = s.mem ∧ u.ckpts = c :: s.ckpts ∧ c.part = part ∧ c.id = p.ckNext ∧
        c.prev = (if p.ckFull then 0 else p.ckLast.toNat) ∧ (u.part part).ckNext = p.ckNext + 1 ∧ (u.part part).ckImage.isSome = true) ∧
    (∀ (s1 : State) (c : Chunk) (rest : List Chunk) (ck : Checkpoint) (cs : List (Nat × Byte)), p.ckImage = some (c :: rest) → s.newest part = some ck →
      let bs := (chunkBytes p ck c).drop p.ckChunkPos
      let need := (bs.length + 63) / 64
      let lines := min need ((p.ckTierLim.toNat - p.ckTierWr.toNat) / 64)
      (p.ckTierLen = 0 ∨ lines = 0 → exec (.checkpointImageWrite part) s = .next s) ∧
      (p.ckTierLen ≠ 0 → lines ≠ 0 →
        s.tierCells part (wbits p.ckTier 16 40 * 65536) p.ckTierLen.toNat lines p.ckTierWr.toNat bs = (s1, cs) →
        ∃ u, exec (.checkpointImageWrite part) s = .next u ∧ u.mem = s1.mem.write cs ∧
          (u.part part).ckTierWr = word (p.ckTierWr.toNat + 64 * lines) ∧
          (lines = need → (u.part part).ckImage = some rest ∧ (u.part part).ckChunkPos = 0) ∧
          (lines < need → (u.part part).ckImage = some (c :: rest) ∧ (u.part part).ckChunkPos = p.ckChunkPos + 64 * lines))) ∧
    (p.ckImage = some [] →
      exec (.checkpointComplete part) s = .next { s with
        parts := tabSet s.parts part { p with ckBusy := false, ckImage := none, ckLast := word (p.ckNext - 1) } }))

/-! ### Partitions -/

/-- R371, R372, R373, R15: CREATE of a partition that does not exist, of functions that no partition holds, with enough tiles,
granules and a queue range, takes the lowest ones; its granules and tile stores read as zeros with descriptor 0; its
functions join it, and the request completes with status 0. An existing partition gives status 3, a mask of 0 or of a function
held elsewhere 4, too few resources 2, and nothing else changes.
R371, R372, R235, R261, R286: DESTROY of a partition whose instances have no thread, page or subscription and no completion word ends
them, zeroes its granules and tile stores, drops its translations and queue cache, and frees its tiles and functions. RESET ends
them, clears the tiles, the queue cache and the record backlog, and keeps the allocation and the key. For a partition that does
not exist both give status 1.
The model's choice: log 79, 80. -/
def Obligations.PartitionsAreCreatedDestroyedAndReset : Prop :=
  (
    ∀ (s : State) (side : Bool) (part : Nat) (arg0 arg1 : Word), Stands s side 1 part arg0 arg1 →
      let nt := arg0.toNat % 2 ^ 8
      let ng := arg0.toNat / 2 ^ 8 % 2 ^ 16
      let nq := arg0.toNat / 2 ^ 24 % 2 ^ 16
      let fns := functionsOf arg1
      let tiles := s.freeTiles.take nt
      let granules := s.freeGranules.take ng
      let free := fns ≠ [] ∧ ∀ f ∈ fns, (s.func f).part = none
      let i : Instr := .create side part arg0 arg1
      ((s.part part).exists_ = true → Answers s side i 3) ∧
      ((s.part part).exists_ = false → ¬free → Answers s side i 4) ∧
      ((s.part part).exists_ = false → free → tiles.length < nt ∨ granules.length < ng ∨ s.queueRange part nq = none → Answers s side i 2) ∧
      (∀ first, (s.part part).exists_ = false → free → Canonical s → tiles.length = nt → granules.length = ng → s.queueRange part nq = some first →
        ∃ u, exec i s = .next u ∧ u.dev = requestDone s.dev side 0 ∧ Wiped s u granules tiles ∧
          (u.part part).exists_ = true ∧ (u.part part).tiles = tiles ∧ (u.part part).granules = granules ∧ (u.part part).qCount = nq ∧
          (u.part part).qFirst = (if nq = 0 then 0 else first) ∧ (∀ f, f ∈ (u.part part).functions ↔ f ∈ fns) ∧
          (∀ f, (u.func f).part = if f ∈ fns then some part else (s.func f).part) ∧
          (∀ n, (u.tile n).owner = if n ∈ tiles then some part else (s.tile n).owner) ∧
          (∀ k, k ≠ part → u.part k = s.part k) ∧ u.threads.map (fun e => unseen e.2) = s.threads.map fun e => unseen e.2)) ∧
  (
    ∀ (s : State) (side : Bool) (part : Nat) (arg0 arg1 : Word),
      let p := s.part part
      let Gone (u : State) : Prop := u.dev = requestDone s.dev side 0 ∧ u.insts = s.insts.filter (fun i => decide (i.part ≠ part)) ∧
        u.queues = s.queues.filter (fun q => decide (q.part ≠ part)) ∧ u.tlb = s.tlb.filter (fun e => decide (e.part ≠ part)) ∧
        ∀ k, k ≠ part → u.part k = s.part k
      let Clear (u : State) (owner : Option Nat) : Prop :=
        ∀ n ∈ p.tiles, ∃ b, u.tile n = { present := (s.tile n).present, absent := (s.tile n).absent, owner := b } ∧ (owner.isNone → b = none) ∧
          (owner.isSome → b = (s.tile n).owner)
      (Stands s side 2 part arg0 arg1 → p.exists_ = false → Answers s side (.destroy side part arg0 arg1) 1) ∧
      (Stands s side 6 part arg0 arg1 → p.exists_ = false → Answers s side (.partitionReset side part arg0 arg1) 1) ∧
      (Stands s side 2 part arg0 arg1 → p.exists_ = true → Canonical s → OnlyBare s part →
        ∃ u, exec (.destroy side part arg0 arg1) s = .next u ∧ Gone u ∧ Clear u none ∧ Wiped s u p.granules p.tiles ∧
          (u.part part).exists_ = false ∧ (u.part part).tenantKey = 0 ∧ (∀ f ∈ p.functions, (u.func f).part = none)) ∧
      (Stands s side 6 part arg0 arg1 → p.exists_ = true → Canonical s → OnlyBare s part →
        ∃ u, exec (.partitionReset side part arg0 arg1) s = .next u ∧ Gone u ∧ Clear u (some part) ∧ Wiped s u [] p.tiles ∧
          u.part part = { p with
            backlog := [], owed := [], ckBusy := false, ckImage := none, ckChunkPos := 0, ckInsts := [], logBlock := none, ckReplay := false
            replay := [], replayAt := [], resizing := none }))

/-- R372, R373: ASSIGN adds the functions of its mask; under a limited pool a new function's balance is 0 with EXH set, else its
account stays; a function held elsewhere gives status 4. RELEASE of functions for which no meter holds energy removes those of its
mask, returns their limited
balances to a limited pool and sets their account's balance, low mark, weight, reserve and flags to their reset values; a live
thread of one of the accounts gives status 3, and the last function status 4.
R372, R351: SETPOOL writes `EN_POOL`; ARCS gives the partition the links of its mask, and one held elsewhere gives status 3;
ENSET sets the low mark of an account of the partition as `en.set` does, and the device account, items 8 to 10 and a reserved
selector bit give status 4. For a partition that does not exist each of these, ASSIGN, RELEASE and RESTORE gives status 1. -/
def Obligations.PartitionResourcesAreAssigned : Prop :=
  (
    ∀ (s : State) (side : Bool) (part : Nat) (arg0 arg1 : Word), (s.part part).exists_ = true →
      let p := s.part part
      let mask := functionsOf arg1
      let new := mask.filter fun f => decide (f ∉ p.functions)
      let out := mask.filter fun f => decide (f ∈ p.functions)
      let back (pool : Word) (f : Nat) : Word :=
        let q := (s.account f).quota
        if pool = allOnes ∨ q = allOnes then pool else word (min (pool.toNat + q.toNat) (2 ^ 64 - 2))
      let elsewhere := ∃ f ∈ mask, ∃ k, (s.func f).part = some k ∧ k ≠ part
      let live := ∃ e ∈ s.threads, e.2.acct ∈ out
      (Stands s side 4 part arg0 arg1 →
        (elsewhere → Answers s side (.assign side part arg0 arg1) 4) ∧
        (¬elsewhere →
          ∃ u, exec (.assign side part arg0 arg1) s = .next u ∧
            u = { s with dev := requestDone s.dev side 0, funcs := u.funcs, accounts := u.accounts, parts := u.parts } ∧
            (∀ f, f ∈ (u.part part).functions ↔ f ∈ p.functions ∨ f ∈ mask) ∧ u.part part = { p with functions := (u.part part).functions } ∧
            ∀ f, u.func f = (if f ∈ new then { s.func f with part := some part } else s.func f) ∧
              u.account f = (if f ∈ new ∧ p.pool ≠ allOnes then { s.account f with quota := 0, status := (s.account f).status ||| 1 } else s.account f))) ∧
      (Stands s side 5 part arg0 arg1 →
        (live → Answers s side (.release side part arg0 arg1) 3) ∧
        (¬live → (∀ f ∈ p.functions, f ∈ out) → Answers s side (.release side part arg0 arg1) 4) ∧
        (¬live → (∃ f ∈ p.functions, f ∉ out) → (∀ e ∈ s.meters, ∀ x ∈ e.2, x.1 ∉ out) →
          ∃ u, exec (.release side part arg0 arg1) s = .next u ∧
            u = { s with dev := requestDone s.dev side 0, funcs := u.funcs, accounts := u.accounts, parts := u.parts } ∧
            u.part part = { p with functions := p.functions.filter (fun f => decide (f ∉ out)), pool := out.foldl back p.pool } ∧
            ∀ f, u.func f = (if f ∈ out then { s.func f with part := none } else s.func f) ∧
              u.account f = (if f ∈ out then { s.account f with
                quota := allOnes, reserve := 1000000, status := 0, low := 0, weight := 1, lowDue := false, exhDue := false, cutBy := none } else s.account f)))) ∧
  (
    ∀ (s : State) (side : Bool) (part : Nat) (arg0 arg1 : Word),
      let p := s.part part
      let m := arg0.toNat % 2 ^ 12
      let item := arg0.toNat % 16
      let acct := arg0.toNat / 16
      let With (i : Instr) (q : Partition) : Prop := exec i s = .next { s with dev := requestDone s.dev side 0, parts := tabSet s.parts part q }
      (∀ e ∈ ([(4, .assign), (5, .release), (7, .restore), (8, .setpool), (9, .arcs), (11, .enset)] : List (Nat × (Bool → Nat → Word → Word → Instr))),
        Stands s side e.1 part arg0 arg1 → p.exists_ = false → Answers s side (e.2 side part arg0 arg1) 1) ∧
      (p.exists_ = true →
        (Stands s side 8 part arg0 arg1 → With (.setpool side part arg0 arg1) { p with pool := arg1 }) ∧
        (Stands s side 9 part arg0 arg1 →
          let taken := ∃ e ∈ s.parts, e.2.exists_ = true ∧ e.1 ≠ part ∧ e.2.links &&& m ≠ 0
          (taken → Answers s side (.arcs side part arg0 arg1) 3) ∧ (¬taken → With (.arcs side part arg0 arg1) { p with links := m })) ∧
        (Stands s side 11 part arg0 arg1 →
          (arg0.toNat ≥ 2 ^ 11 ∨ item > 11 ∨ item = 8 ∨ item = 9 ∨ item = 10 ∨ acct = 64 ∨ acct ∉ p.functions → Answers s side (.enset side part arg0 arg1) 4) ∧
          (item = 5 → acct < 64 → acct ∈ p.functions →
            exec (.enset side part arg0 arg1) s = .next { s with
              dev := requestDone s.dev side 0, accounts := tabSet s.accounts acct { s.account acct with low := arg1 } }))))

/-- R372, R257: RESIZE of a partition with no instance and no thread gives it the lowest tiles it has, or its tiles with the lowest
free ones, its granules with the lowest free ones, and the queue count; tiles that leave and come are cleared and new granules are
zeroed. A smaller GiB count gives status 4, too few resources 2. With an instance that runs it starts a RESIZE cut, and the
request stays.
R412, R372, R378: RETIRE of a presented tile that no partition holds, or whose partition has no instance and no thread, takes it
away; a spare of its die is presented under its number, else the number is absent; `DEV_STATUS` becomes DEGRADED and a record
is written. A tile that is not presented gives status 4; a partition that owned the tile when the request was accepted and is there
no more gives status 1.
The model's choice: log 80, 81, 82. -/
def Obligations.PartitionsAreResizedAndTilesRetired : Prop :=
  (
    ∀ (s : State) (side : Bool) (part : Nat) (arg0 arg1 : Word), Stands s side 3 part arg0 arg1 → (s.part part).exists_ = true →
      (s.part part).resizing = none →
      let p := s.part part
      let nt := arg0.toNat % 2 ^ 8
      let ng := arg0.toNat / 2 ^ 8 % 2 ^ 16
      let nq := arg0.toNat / 2 ^ 24 % 2 ^ 16
      let come := s.freeTiles.take (nt - p.tiles.length)
      let more := s.freeGranules.take (ng - p.granules.length)
      let tiles := if nt ≤ p.tiles.length then p.tiles.take nt else (p.tiles ++ come).insertionSort (· ≤ ·)
      let gone := p.tiles.filter fun n => decide (n ∉ tiles)
      let i : Instr := .resize side part arg0 arg1
      let fits := p.granules.length ≤ ng ∧ p.tiles.length + come.length ≥ nt ∧ p.granules.length + more.length = ng ∧ s.queuesFree part p.qFirst nq = true
      (ng < p.granules.length → Answers s side i 4) ∧
      (p.granules.length ≤ ng → p.tiles.length + come.length < nt ∨ p.granules.length + more.length < ng ∨ s.queuesFree part p.qFirst nq = false →
        Answers s side i 2) ∧
      (fits → Canonical s → (∀ j ∈ s.insts, j.part ≠ part) → (∀ e ∈ s.threads, e.2.part ≠ part) → (∀ n ∈ come, n ∉ p.tiles) → (∀ g ∈ more, g ∉ p.granules) →
        ∃ u, exec i s = .next u ∧ u.dev = requestDone s.dev side 0 ∧ Wiped s u more (gone ++ come) ∧
          u.part part = { p with tiles, granules := p.granules ++ more, qCount := nq, resizing := none } ∧
          ∀ n, (u.tile n).owner = if n ∈ gone then none else if n ∈ come then some part else (s.tile n).owner) ∧
      (∀ j : Inst, fits → s.insts = [j] → j.part = part → Undisturbed s j →
        ∃ u, exec i s = .next u ∧ u.mem = s.mem ∧ u.dev = s.dev ∧ CutStarts u j 16 (some (s.dev.elapsed + Config.resizeDeadline s.fresh)) ∧
          u.part part = { p with log := (u.part part).log, resizing := some { tiles, granules := p.granules ++ more, queues := nq, side := some side } })) ∧
  (
    ∀ (s : State) (side : Bool) (part : Nat) (arg0 arg1 : Word), Stands s side 10 part arg0 arg1 →
      let n := arg0.toNat
      let i : Instr := .retire side part arg0 arg1
      let spares := if n < 96 then s.dev.spares0 else s.dev.spares1
      let Retired (u : State) : Prop :=
        (u.tile n).present = decide (0 < spares) ∧ (u.tile n).absent = decide (spares = 0) ∧ (u.tile n).owner = none ∧
          u.dev.degraded = true ∧ u.dev.errTail = s.dev.errTail + 1 ∧ (u.dev.errLog.getLast?).map Record.cause = some 0x94 ∧
          (if n < 96 then u.dev.spares0 = spares - 1 ∧ u.dev.retired0 = s.dev.retired0 + 1 else u.dev.spares1 = spares - 1 ∧ u.dev.retired1 = s.dev.retired1 + 1) ∧
          (let c := if side then u.dev.teth else u.dev.pf; c.busy = false ∧ c.status = 0)
      let target := (if side then s.dev.teth else s.dev.pf).target
      (∀ q, target = some q → (s.part q).exists_ = false → Answers s side i 1) ∧
      ((∀ q, target = some q → (s.part q).exists_ = true) →
      (192 ≤ n ∨ (s.tile n).present = false → Answers s side i 4) ∧
      (n < 192 → (s.tile n).present = true → (s.tile n).owner = none → ∃ u, exec i s = .next u ∧ u.mem = s.mem ∧ Retired u) ∧
      (∀ own, n < 192 → (s.tile n).present = true → (s.tile n).owner = some own → (s.part own).resizing = none →
        (∀ j ∈ s.insts, j.part ≠ own) → (∀ e ∈ s.threads, e.2.part ≠ own) →
        ∃ u, exec i s = .next u ∧ Retired u ∧ (u.part own).tiles = (s.part own).tiles.filter fun k => decide (k ≠ n))))

/-- R403, R258, R414: RESTORE of a full checkpoint of the partition that stands whole in its tier and whose key the present
key-encryption key wrapped, with no instance in it or in the partition, completes with status 0: it puts back its bytes in the granules
and tile stores the partition has, zero elsewhere in them, and its registers; CK_LAST names it. An identifier of no checkpoint, a missing
or another key-encryption key, or a full checkpoint that the tier does not hold whole give status 4.
The model's choice: log 16, 83, 117. -/
def Obligations.CheckpointsAreRestored : Prop :=
  ∀ (s : State) (side : Bool) (part : Nat) (arg0 arg1 : Word), Stands s side 7 part arg0 arg1 → (s.part part).exists_ = true →
    let p := s.part part
    let i : Instr := .restore side part arg0 arg1
    let found := s.ckpts.find? fun c => decide (c.part = part ∧ c.id = arg0.toNat)
    (found = none → Answers s side i 4) ∧
    (∀ ck, found = some ck → ck.prev = 0 → (∀ k, s.teth.kek = some k → ck.wrapped ≠ Config.keyWrap k ck.key) → Answers s side i 4) ∧
    (∀ ck, found = some ck → ck.prev = 0 → s.tierHolds part ck = false → Answers s side i 4) ∧
    (∀ ck k, found = some ck → ck.prev = 0 → s.teth.kek = some k → ck.wrapped = Config.keyWrap k ck.key → s.tierHolds part ck = true →
      ck.insts = [] → (∀ j ∈ s.insts, j.part ≠ part) → Canonical s →
      let cells := ck.mem.filterMap fun c => (p.imagePa c.1).map fun a => (a, c.2)
      ∃ u q, exec i s = .next u ∧ u.dev = requestDone s.dev side 0 ∧ u.part part = q ∧
        (∀ a, (Covered p.granules p.tiles a → u.readByte a = lastOf cells a 0) ∧
          (¬Covered p.granules p.tiles a → u.readByte a = lastOf cells a (s.readByte a))) ∧
        q.tiles = p.tiles ∧ q.granules = p.granules ∧ q.functions = p.functions ∧ q.vec = ck.partState.vec ∧ q.root = ck.partState.root ∧
        q.recRing = ck.partState.recRing ∧ q.ckPeriod = ck.partState.ckPeriod ∧ q.ckTier = ck.partState.ckTier ∧
        q.ckTierLen = ck.partState.ckTierLen ∧ q.ckTierLim = ck.partState.ckTierLim ∧ q.ckCtl = ck.partState.ckCtl ∧ q.ckLast = word ck.id ∧
        q.backlog = [] ∧ q.ckBusy = false)

/-! ### Apertures, arc links and error events -/

/-- R373, R375: through the aperture of a function of a partition, a read of bytes of one block that pass at level U returns them, and
one that does not pass returns all ones; through an unassigned function's, a read returns all ones and a write changes nothing.
A write that passes, outside every queue and while no host writes are logged, is published. One that does not pass changes no memory
and gives a PROT record, at most one in a millisecond for each function.
R376, R377, R401: where the slot stands free, an arrival writes the slot and the producer's count as one publication and is logged;
a full ring takes none. The far consumer's count becomes REMOTE0 where it is above it and no greater than the slots posted. The
link sends the next posted slot, if there is one.
The model's choice: log 85, 86. -/
def Obligations.AperturesAndArcsMoveBytes : Prop :=
  (
    ∀ (s s1 : State) (fn va n pa : Nat) (bs : List Byte),
      let ones (k : Nat) : List Byte := List.replicate k 255
      ((s.func fn).part = none →
        exec (.hostApertureRead fn va n) s = .next { s with dev := { s.dev with hostData := ones n } } ∧
        exec (.hostApertureWrite fn va bs) s = .next s) ∧
      (∀ part, (s.func fn).part = some part → HostPasses s s1 part .read va n pa →
        ∃ u, exec (.hostApertureRead fn va n) s = .next u ∧ u.dev = { s.dev with hostData := (List.range n).map fun k => s.readByte (pa + k) } ∧
          u = { s with dev := u.dev, tlb := u.tlb, arrays := u.arrays, meters := u.meters, accounts := u.accounts, fresh := u.fresh }) ∧
      (∀ part m, (s.func fn).part = some part → (s.part part).recRing = 0 → 0 < n → va < 2 ^ 56 → va % 64 + n ≤ 64 →
        s.translate 0 part 0 false .read va n = (s1, .error m) →
        ∃ u, exec (.hostApertureRead fn va n) s = .next u ∧ u.dev.hostData = ones n ∧ u.mem = s.mem) ∧
      (∀ part, (s.func fn).part = some part → (s.part part).replay = [] → (s.part part).ckCtl.getLsbD 1 = false → (s.part part).qCount = 0 →
        HostPasses s s1 part .write va bs.length pa →
        ∃ u, exec (.hostApertureWrite fn va bs) s = .next u ∧ u.mem = s.mem.write (cellsAt pa bs) ∧ u.dev = s.dev ∧ u.parts = s.parts ∧
          u.threads.map (fun e => unseen e.2) = s.threads.map fun e => unseen e.2) ∧
      (∀ part m, (s.func fn).part = some part → (s.part part).replay = [] → s.badBlocks = [] → 0 < bs.length → va < 2 ^ 56 → va % 64 + bs.length ≤ 64 →
        s.translate 0 part 0 false .write va bs.length = (s1, .error m) →
        (∀ x, (s.func fn).lastPctl = some x → s.dev.elapsed < x + 1000000 → exec (.hostApertureWrite fn va bs) s = .next s1) ∧
        ((∀ x, (s.func fn).lastPctl = some x → x + 1000000 ≤ s.dev.elapsed) → (s.part part).recRing = 0 →
          ∃ u, exec (.hostApertureWrite fn va bs) s = .next u ∧ u.mem = s.mem ∧ Reports s u s.dev (some part) 0x21 ∧
            (u.func fn).lastPctl = some s.dev.elapsed))) ∧
  (
    ∀ (s : State) (link ring : Nat) (bs : List Byte) (n : Nat) (i : Inst) (r : Ring) (tile : Nat),
      (ArcEnd s link ring true i r tile → (s.part i.part).replay = [] →
        let cb := apertureBase tile + r.ccb
        let count := s.readNat cb 8
        let slot := apertureBase tile + r.base + count % r.depth * (64 * r.slot64)
        (r.depth ≤ count - s.readNat (cb + 8) 8 → exec (.arcArrival link ring bs) s = .next s) ∧
        (count - s.readNat (cb + 8) 8 < r.depth → bs.length = 64 * r.slot64 →
          ∃ u, exec (.arcArrival link ring bs) s = .next u ∧ u.mem = s.mem.write (cellsAt slot bs ++ cellsAt cb (leBytes 8 (count + 1))) ∧
            u.pubCount = s.pubCount + 1 ∧
            LogGrows s u i.part { typ := 5, a := link + ring * 16, b := word (count + 1) })) ∧
      (ArcEnd s link ring false i r tile →
        let cb := apertureBase tile + r.pcb
        let posted := s.readNat (cb + 8) 8
        let key := i.launchSeq * 4096 + ring
        let sent := (tabGet? (s.link link).sent key).getD r.delay
        (s.readNat cb 8 < n → n ≤ posted →
          ∃ u, exec (.arcAdvanceReturn link ring n) s = .next u ∧ u.mem = s.mem.write (cellsAt cb (leBytes 8 n)) ∧ u.dev = s.dev ∧ u.parts = s.parts) ∧
        (n ≤ s.readNat cb 8 ∨ posted < n → exec (.arcAdvanceReturn link ring n) s = .next s) ∧
        (sent < posted →
          ∃ u, exec (.arcSlotSend link ring) s = .next u ∧ u = { s with
            links := tabSet s.links link { s.link link with sent := tabSet (s.link link).sent key (sent + 1) }
            meters := u.meters, accounts := u.accounts, fresh := u.fresh }) ∧
        (posted ≤ sent → exec (.arcSlotSend link ring) s = .next s)))

/-- R377, R378, R379, R417, R7: a beat error takes one of the twelve links down from then on; down for more than 100 ms, it is reported
once, as LINK_DOWN, to its partition and the error log; its return brings it up. An attach failure clears ATTACH and is reported as
ATTACH_ERR; one of the 256 islands held a point lower, below the point asked for it, as THERMAL, to the partition of its tile; one at
point 0, or that stands above the point asked, is not held. A full log drops its oldest record and counts it in ERRLOST.
The model's choice: log 86, 87, 96, 118. -/
def Obligations.LinksAndUnitsReportErrors : Prop :=
  ∀ (s : State) (n : Nat), (∀ e ∈ s.parts, e.2.recRing = 0) →
    let l := s.link n
    let With (k : Link) : State := { s with links := tabSet s.links n k }
    let owner := (s.parts.find? fun e => e.2.exists_ && e.2.links.testBit n).map Prod.fst
    let point := tabGet 7 s.dev.points n
    (l.up = true → n < 12 → exec (.linkBeatError n) s = .next (With { l with up := false, downAt := s.dev.elapsed })) ∧
    (l.up = false ∨ 12 ≤ n → exec (.linkBeatError n) s = .next s) ∧
    (l.up = true ∨ l.reported = true ∨ s.dev.elapsed ≤ l.downAt + 100000000 ∨ 12 ≤ n → exec (.linkDown n) s = .next s) ∧
    (l.up = false → l.reported = false → l.downAt + 100000000 < s.dev.elapsed → n < 12 →
      ∃ u, exec (.linkDown n) s = .next u ∧ u.links = (With { l with reported := true }).links ∧ u.mem = s.mem ∧ Reports s u s.dev owner 0x92) ∧
    exec (.linkReturn n) s = .next (if n < 12 then With { l with up := true, reported := false } else s) ∧
    (∃ u, exec (.attachErr n) s = .next u ∧ u.mem = s.mem ∧ Reports s u { s.dev with attach := false, attachLost := s.dev.attachLost || s.dev.attach } none 0x93) ∧
    (n < 256 → point ≠ 0 → point ≤ tabGet 7 s.dev.asked n →
      ∃ u, exec (.thermal n) s = .next u ∧ u.mem = s.mem ∧ Reports s u { s.dev with points := tabSet s.dev.points n (point - 1) }
        (((List.range 192).find? fun t => decide (s.islandOf t = n)).bind fun t => (s.tile t).owner) 0x97) ∧
    (256 ≤ n ∨ point = 0 ∨ tabGet 7 s.dev.asked n < point → exec (.thermal n) s = .next s)

/-! ### Tethys and the device's life -/

/-- R406, R409, R411, R13, R379, R415: a listening Tethys answers STATUS with the device status, the lifecycle state, the firmware
version and whether it is in recovery; LOGRD with a record of the log, and refuses one that the log does not hold; ENRD with
Tethys's copy of a mirror; WEARRD with a `WEAR_` register; ATTEST with the nonce's quote under the identity key. ENRD and WEARRD are refused in
recovery, ENRD without main power.
R406, R15, R372, R393, R414: with main power and out of recovery, an authentic PCTL puts its command on Tethys's side of partition
control, unless one is there; an authentic DUMP of a partition returns its trace, its records and its Stopped contexts; an authentic
KEKSET sets the key-encryption key. A request that is not authentic is refused and changes nothing.
The model's choice: log 16. -/
def Obligations.TethysServesItsRequests : Prop :=
  (
    ∀ (s : State) (n k : Nat), Listens s →
      let t := s.teth
      let ms := [t.m0.toNat, t.m1.toNat, t.m2.toNat, t.m3.toNat]
      let quote := Config.shake256 ([n, identifier t] ++ ms)
      let served := t.recovery = false
      Responds s .status [0, s.devStatus.toNat, t.lifecycle, t.fwVersion, if t.recovery then 1 else 0] ∧
      Responds s (.attest n) ([0, identifier t] ++ ms ++ [Config.ed448Sign t.identity quote]) ∧
      (s.dev.errTail ≤ n ∨ n + s.dev.errLog.length < s.dev.errTail → Responds s (.logrd n) [1]) ∧
      (∀ r, n < s.dev.errTail → s.dev.errTail ≤ n + s.dev.errLog.length → s.dev.errLog.length ≤ s.dev.errTail →
        s.dev.errLog[n - (s.dev.errTail - s.dev.errLog.length)]? = some r →
        exec (.logrd n) s = .next { s with teth := { t with errHead := max t.errHead (n + 1), response := 0 :: (recordBytes r).map BitVec.toNat } }) ∧
      (served → s.dev.mainPower = true → n ≤ 64 →
        Responds s (.enrd n k) [0, (let m : Word × Word := tabGet (0, allOnes) t.mirrors n; if k = 0 then m.1 else m.2).toNat]) ∧
      (served → s.dev.mainPower = true → 64 < n → Responds s (.enrd n k) [1]) ∧
      (t.recovery = true ∨ s.dev.mainPower = false → Responds s (.enrd n k) [1]) ∧
      (served → Responds s (.wearrd n) (if n < 6 then [0, (s.wearRead n).toNat] else [1])) ∧ (t.recovery = true → Responds s (.wearrd n) [1])) ∧
  (
    ∀ (s : State) (ctr sig key part : Nat) (cmd arg0 arg1 : Word), Listens s → s.teth.recovery = false → s.dev.mainPower = true →
      SignedAnswer s (.pctl ctr sig cmd arg0 arg1) 0x10 ctr sig [cmd.toNat, arg0.toNat, arg1.toNat] (fun a u =>
        (s.dev.teth.busy = true → u = { a with teth := { a.teth with response := [1] } }) ∧
        (s.dev.teth.busy = false → u.teth = { a.teth with response := [0] } ∧ u = { a with teth := u.teth, dev := u.dev } ∧
          (cmd.toNat % 2 ^ 8 ∈ [1, 2, 3, 4, 5, 6, 7, 8, 9, 10, 11] → u.dev.teth.busy = true ∧ u.dev.teth.arg0 = arg0 ∧ u.dev.teth.arg1 = arg1 ∧
            u.dev.teth.cmd.toNat % 2 ^ 14 = cmd.toNat % 2 ^ 14))) ∧
      SignedAnswer s (.dump ctr sig part) 0x11 ctr sig [part] (fun a u =>
        u = { a with teth := { a.teth with response := if (s.part part).exists_ then 0 :: a.dumpOf part else [1] } }) ∧
      SignedAnswer s (.kekset ctr sig key) 0x12 ctr sig [key] (fun a u => u = { a with teth := { a.teth with kek := some key, response := [0] } }))

/-- R406, R408, R409, R415: an authentic RESET, also in recovery, restarts the part from the image in flash: main power is off, no
thread, partition or instance is left, and Tethys is in recovery exactly if the image in flash is incomplete, does not carry the firmware
key's signature or has an index below the rollback counter. FWLOAD takes the image out of service first, and its next step puts the new one
in flash, answering as done exactly if that one would start.
R416, R413, R414, R415: UNLOCK returns the fuse values with a nonce, and keeps the nonce; it records a token that the debug authority
has signed over the present values, and refuses any other. From then on it is carried through: with no partition left the counter
is raised, the keys are wiped and the measurements extended, and the port opens for the token's scope exactly if main power is
on. PROVISION with a token of the debug authority replaces the operator key, and is refused with any other.
The model's choice: log 16, 89, 121. -/
def Obligations.ResetsFirmwareAndUnlocks : Prop :=
  (
    (∀ (s : State) (ctr sig version index : Nat) (image : FwSealed), Listens s →
      SignedAnswer s (.reset ctr sig) 0x13 ctr sig [] (fun _ u =>
        u.dev.mainPower = false ∧ u.dev.ready = false ∧ u.dev.mgmt = true ∧ u.threads = [] ∧ u.parts = [] ∧ u.insts = [] ∧ u.tiles = [] ∧ u.pages = [] ∧
          u.dev.errLog = s.dev.errLog ∧ u.ckpts = s.ckpts ∧ u.teth.kek = s.teth.kek ∧ u.teth.unlocks = s.teth.unlocks ∧ u.teth.booted = true ∧
          u.teth.port = none ∧ u.teth.response = [0] ∧ u.teth.m3 = 0 ∧
          (u.teth.recovery = false ↔ Starts s.teth) ∧
          (u.teth.recovery = false → u.teth.fwVersion = (imageOf s.teth).version ∧ u.teth.fwIndex = (imageOf s.teth).index)) ∧
      SignedAnswer s (.fwload ctr sig version index image) 0x20 ctr sig [version, index, image.body, image.key, image.sig] (fun a u =>
        u = { a with teth := { a.teth with loading := some { toFwSealed := image, version, index }, flashWhole := false } })) ∧
    (∀ (s : State) (ctr sig v w : Nat) (f : FwImage) (g : FwSealed), s.teth.loading = some f →
      (Authentic f s.teth.rollback → exec (.fwload ctr sig v w g) s = .next { s with teth := { s.teth with
        loading := none, flash := some f, flashWhole := true, response := [0] } }) ∧
      (¬Authentic f s.teth.rollback → exec (.fwload ctr sig v w g) s = .next { s with teth := { s.teth with
        loading := none, flash := some f, flashWhole := true, response := [1] } }))) ∧
  (
    ∀ (s : State) (token key : Nat), (s.teth.booted = true → s.teth.loading = none → s.teth.recovery = false →
      let t := s.teth
      let nonce := Config.random s.fresh % 2 ^ 128
      let covers (n : Nat) : Bool := Config.ed448Check Config.debugAuthorityKey
        (Config.shake256 [identifier t, t.lifecycle, t.unlocks, n, token % 2 ^ 32]) (token / 2 ^ 32)
      let granted := Config.ed448Check Config.debugAuthorityKey (Config.shake256 [identifier t, t.lifecycle, t.unlocks, key]) token
      (t.pendingToken = none →
        exec .unlockNonce s = .next { s with fresh := s.fresh + 1, teth := { t with
          nonce := some nonce, nonces := t.nonces + 1, response := [0, identifier t, t.lifecycle, t.unlocks, nonce] } } ∧
        (t.nonce = none → Responds s (.unlockToken token) [1]) ∧
        (∀ n, t.nonce = some n → covers n = true → exec (.unlockToken token) s = .next { s with teth := { t with pendingToken := some token } }) ∧
        (∀ n, t.nonce = some n → covers n = false → Responds s (.unlockToken token) [1]) ∧
        (granted = true → exec (.provision token key) s = .next { s with teth := { t with
          operatorKey := key, m1 := Config.digest64 (key :: s.dev.hash.toList.map BitVec.toNat), response := [0] } }) ∧
        (granted = false → Responds s (.provision token key) [1])) ∧
      (∀ tk, t.pendingToken = some tk → (∀ e ∈ s.parts, e.2.exists_ = false) →
        exec (.unlockToken token) s = .next { s with teth := (if s.dev.mainPower
          then { unlocked t tk with port := some (tk % 2 ^ 32), response := [0] } else { unlocked t tk with response := [1] }) })))

/-- R405, R408, R413, R416, R323: standby power boots Tethys, while main power is off, from the image in flash, into recovery where it does
not verify or is too old, with the identity key derived; beside main power that stayed on Tethys starts again as it was, if the image still
verifies, and else boots into recovery with main power off. It carries an
accepted unlock through. A loss of power leaves Tethys off with the flash and the
fuses as they are, and nothing else but memory beyond the package. Main power-good on a booted part with 96 good tiles of each die, none of
them retired before, and good stacks presents 192 tiles, the first 96 of each die, with the others as spares, and records each built tile
that failed and was not retired before.
R405, R14, R338, R408, R371, R378, R410: after step 1 has succeeded, a new calibration, whose energy account 64 bears, sets CAL and
measures the margins; a presented tile whose margin is below its limit is due to be retired. Then
memory initialisation zeroes all HBM, clears its descriptors and sets MEMINIT; attach training, which no later failure stops, ends with
ATTACH set, or with it clear and an error record. READY rises once memory is initialised, attach training has ended and every tile is
there, and raises the rollback counter to the image's index. Before their turn these change nothing.
The model's choice: log 88, 89, 118, 137. -/
def Obligations.PowerAndBringUp : Prop :=
  (
    (∀ s : State, s.teth.booted = false → s.teth.pendingToken = none → s.dev.mainPower = true →
      (Starts s.teth → exec .standbyBoot s = .next { s with dev := { s.dev with mgmt := true }, teth := { s.teth with booted := true } }) ∧
      (¬Starts s.teth → ∃ u, exec .standbyBoot s = .next u ∧ u.teth.booted = true ∧ u.teth.recovery = true ∧ u.dev.mainPower = false ∧
        u.dev.mgmt = true ∧ u.dev.ready = false ∧ u.threads = [] ∧ u.parts = [] ∧ u.teth.flash = s.teth.flash ∧ u.teth.unlocks = s.teth.unlocks)) ∧
    (∀ s : State, s.teth.booted = false → s.teth.pendingToken = none → s.dev.mainPower = false →
      let t := s.teth
      let f := imageOf t
      ∃ u, exec .standbyBoot s = .next u ∧ u = { s with dev := { s.dev with mgmt := true }, teth := u.teth } ∧ u.teth.booted = true ∧
        (u.teth.recovery = false ↔ Starts t) ∧ u.teth.fwGood = !u.teth.recovery ∧
        (u.teth.recovery = false → u.teth.fwVersion = f.version ∧ u.teth.fwIndex = f.index) ∧ u.teth.nonce = none ∧ u.teth.port = none ∧
        u.teth.identity = Config.ed448Public Config.fuseSecret ∧ u.teth.m0 = Config.digest64 [f.version, f.index, f.body, f.key, f.sig] ∧
        u.teth.m2 = Config.digest64 [t.lifecycle, t.unlocks]) ∧
    (∀ (s : State) (tk : Nat), s.teth.booted = false → s.teth.pendingToken = some tk → (∀ e ∈ s.parts, e.2.exists_ = false) →
      ∃ u, exec .standbyBoot s = .next u ∧ u.teth.pendingToken = none ∧ u.teth.unlocks = (s.teth.unlocks + 1) % 2 ^ 16 ∧ u.teth.kek = none) ∧
    (∀ s : State, ∃ u, exec .powerLoss s = .next u ∧ u.dev.mainPower = false ∧ u.dev.mgmt = false ∧ u.dev.ready = false ∧ u.threads = [] ∧ u.parts = [] ∧
      u.insts = [] ∧ u.mem = s.mem.filter (fun c => decide (0xC000000000000 ≤ c.1)) ∧ u.teth.booted = false ∧ u.teth.kek = none ∧
      u.teth.flash = s.teth.flash ∧ u.teth.flashWhole = s.teth.flashWhole ∧ u.teth.unlocks = s.teth.unlocks ∧
      u.teth.rollback = s.teth.rollback ∧ u.teth.lifecycle = s.teth.lifecycle ∧ u.teth.operatorKey = s.teth.operatorKey ∧
      u.teth.pendingToken = s.teth.pendingToken) ∧
    (∀ (s : State) (g0 g1 : List Nat) (hbm : Bool), s.teth.booted = true → s.teth.recovery = false → s.dev.mainPower = false →
      (∀ k ∈ g0 ++ g1, k < 104) → g0.Nodup → g1.Nodup →
      let c0 := g0.filter fun k => decide (k ∉ s.dev.retired)
      let c1 := g1.filter fun k => decide (104 + k ∉ s.dev.retired)
      ∃ u, exec (.mainPowerGood g0 g1 hbm) s = .next u ∧ u.dev.mainPower = true ∧ u.dev.cycles = s.dev.cycles + 1 ∧ u.mem = s.mem ∧
        (96 ≤ c0.length → 96 ≤ c1.length → hbm = true →
          (∀ n, u.tile n = { present := decide (n < 192) }) ∧ u.dev.good0 = (c0.take 96).insertionSort (· ≤ ·) ∧ u.dev.good1 = (c1.take 96).insertionSort (· ≤ ·) ∧
            u.dev.spares0 = c0.length - 96 ∧ u.dev.spares1 = c1.length - 96) ∧
        (c0.length < 96 ∨ c1.length < 96 ∨ hbm = false → u.tiles = s.tiles ∧ u.dev.good0 = [] ∧ u.dev.good1 = []) ∧
        s.dev.errTail + (104 - c0.length - s.dev.retired0) + (104 - c1.length - s.dev.retired1) ≤ u.dev.errTail)) ∧
  (
    ∀ (s : State) (ok : Bool),
      let d := s.dev
      let presented := d.mainPower = true ∧ d.good0.length = 96 ∧ d.good1.length = 96
      let numbered := presented ∧ d.failed = false
      let there := ∀ n, n < 192 → (s.tile n).present = true ∧ (s.tile n).absent = false
      (numbered → d.cal = false →
        ∃ u y, exec .calibrationDone s = .next u ∧ Flushed (s.account 64) y (Config.calEnergy s.fresh) ∧
          u = { s with
            accounts := tabSet s.accounts 64 y, fresh := s.fresh + 2
            dev := { d with
              cal := true, calGen := d.calGen + 1, calBase := d.calGen + 1, trims := [], trimNext := [], trimDue := false, trimLast := d.elapsed
              margins := u.dev.margins, retireDue := u.dev.retireDue, predicted := u.dev.predicted, wearDays := u.dev.wearDays
              wearConf := u.dev.wearConf } } ∧
          ∀ n, n ∈ u.dev.retireDue ↔ n ∈ d.retireDue ∨ n < 192 ∧ (s.tile n).present = true ∧
            (let m := (tabGet 0 u.dev.margins (s.islandOf n)).toNat; m % 2 ^ 16 < m / 2 ^ 16 % 2 ^ 16)) ∧
      (¬numbered → exec .calibrationDone s = .next s ∧ exec .meminitDone s = .next s) ∧
      (¬presented → exec (.attachTrainingDone ok) s = .next s) ∧
      (numbered → d.cal = true → d.memInit = false → Canonical s →
        ∃ u, exec .meminitDone s = .next u ∧ u.dev = { d with memInit := true } ∧
          ∀ a, (a < 2 ^ 39 → u.readByte a = 0 ∧ u.descAt a = 0) ∧ (2 ^ 39 ≤ a → u.readByte a = s.readByte a ∧ u.descAt a = s.descAt a)) ∧
      (d.cal = false → exec .meminitDone s = .next s) ∧
      (presented → d.attachEnded = false →
        (ok = true → exec (.attachTrainingDone ok) s = .next { s with dev := { d with attachEnded := true, attach := true, attachLost := false } }) ∧
        (ok = false → ∃ u, exec (.attachTrainingDone ok) s = .next u ∧ OnlyDevice s u ∧ Reports s u { d with attachEnded := true, attach := false } none 0x93)) ∧
      (numbered → d.memInit = true → d.attachEnded = true → d.ready = false → there →
        exec .ready s = .next { s with
          dev := { d with ready := true, good0 := d.good0.insertionSort (· ≤ ·), good1 := d.good1.insertionSort (· ≤ ·) }
          teth := { s.teth with rollback := max s.teth.rollback s.teth.fwIndex } }) ∧
      (¬numbered ∨ d.memInit = false ∨ d.attachEnded = false ∨ ¬there → exec .ready s = .next s))

/-! ### The whole machine -/

/-- R14, R84, R131, R323, R340, R356, R397 and the reset columns of the register tables: after device reset no bit of `DEV_STATUS` is set,
no slot has a thread, no instance, page, subscription or queue stands, no partition exists and every function is unassigned; the hash
masks, the accounts' reserves, weights and balances, and the checkpoint registers have their reset values.
The model's memory after reset is canonical (log 1): it lists nothing. -/
def Obligations.ResetLeavesTheGivenState : Prop :=
  (
    let r := State.reset
    let d := r.dev
    (r.devStatus = 0 ∧ d.ready = false ∧ d.cal = false ∧ d.memInit = false ∧ d.mgmt = false ∧ d.attach = false ∧ d.degraded = false) ∧
    (d.errHead = 0 ∧ d.errTail = 0 ∧ d.errLost = 0) ∧
    (r.threads = [] ∧ r.insts = [] ∧ r.pages = [] ∧ r.subs = [] ∧ r.queues = []) ∧ (∀ p, (r.part p).exists_ = false) ∧ (∀ f, (r.func f).part = none) ∧
    (∀ n : Fin 9, d.hash[n] = word (2 ^ (8 + n.val) + 2 ^ (17 + n.val) + 2 ^ (26 + n.val))) ∧
    (∀ a, r.account a = { quota := allOnes, reserve := 1000000, weight := 1, mirQuota := allOnes }) ∧
    (∀ p, (r.part p).pdl = 1000 ∧ (r.part p).pool = allOnes ∧ (r.part p).ckPeriod = word (100 + 10000 * 2 ^ 24) ∧ (r.part p).ckCtl = 1) ∧
    (d.pf = {} ∧ d.teth = {} ∧ d.slew = 0)) ∧
  (
    Canonical State.reset ∧ ∀ a, State.reset.readByte a = 0)

/-- A step is one turn and what follows at once. On a core's turn whose thread, chosen by R85, has no trap to deliver, whose words at its
program counter pass fetch and decode to an instruction and match no breakpoint, it is `exec` of that instruction, in the state in which
the thread has been chosen; a line in the tile's instruction cache gives its word and changes nothing, and with none the word is what
memory holds (R90, R441). On an element's turn of a resident page it is `exec` of the operation that the slot's word decodes to, and on an
event's turn `exec` of the event, but that nothing comes over an attach that is down (R12) and a request of Tethys waits behind those that
have arrived (R406), the first of which a turn of Tethys performs. A unit whose island is at point 0 or 1 does nothing (R417). Around
`exec`, a thread whose event has to wait for a replay has not issued (R85, R403), and a turn that publishes what a checkpoint has yet
to copy waits (R399, R400); where nothing waits for a replay and no checkpoint copies, these change nothing.
The model's choice: log 3, 118, 140, 142. -/
def Obligations.StepRunsTheDecodedInstruction : Prop :=
  let runs (s : State) (island : Nat) : Prop := 2 ≤ tabGet 7 s.dev.points island
  let after (s : State) (o : Host.Outcome State Fault Refusal) := settled (heldForCopy (turnOf s) (begun s) o)
  (∀ (s s1 s2 : State) (tile k : Nat) (t : Thread) (w x : Half) (i : Instr), turnOf s = .core tile → runs s (s.islandOf tile) →
    (begun s).choose tile = some k →
    let b := (begun s).begin_ t
    s.thread? (4 * tile + k) = some t → t.num = 4 * tile + k → t.pending = [] ∨ t.hnd = true →
    FetchesWord (begun s) s1 b t.pc w → (if needsExtension w then FetchesWord s1 s2 b (t.pc + 4) x else s2 = s1 ∧ x = 0) →
    decodeControl w x = .ok i → t.afterTret = true ∨ (∀ n : Fin 4, (s.tile tile).brk[n].getLsbD 0 = false) →
    step s = after s (issued s2 tile (4 * tile + k) (exec i (s2.chosen tile k))) ∧ (s2.chosen tile k).cur = 4 * tile + k) ∧
  (∀ (b u : State) (tile n : Nat), (∀ t, u.thread? n = some t → u.heldBack t = false) → issued b tile n (.next u) = .next u) ∧
  (∀ (turn : Turn) (b : State) (o : Host.Outcome State Fault Refusal), (∀ e ∈ b.parts, e.2.ckImage = none) → heldForCopy turn b o = o) ∧
  (∀ (s : State) (tile : Nat), turnOf s = .core tile → ¬runs s (s.islandOf tile) → step s = after s (.next (begun s))) ∧
  (∀ (s : State) (t : Thread) (pc : Word) (l : CodeLine), s.icache.find? (s.codeHit t pc) = some l →
    FetchesWord s s t pc (BitVec.ofNat 32 (leNat ((l.data.drop (pc.toNat % 64)).take 4)))) ∧
  (∀ (s s1 : State) (t : Thread) (pc : Word) (pa : Nat), s.icache = [] → pc.toNat < 2 ^ 56 → pc.toNat % 4 = 0 → t.fetchSnap = s.pubCount →
    (s.chargeLookup (s.islandOf (t.num / 4)) (accountOf t) (dieOf (t.num / 4)) t.part (pc.toNat / 64 * 64)).translate
      (dieOf (t.num / 4)) t.part t.level false .fetch (pc.toNat / 64 * 64) 64 = (s1, .ok pa) →
    ∃ s2, FetchesWord s s2 t pc (BitVec.ofNat 32 (leNat (s.readBytes (pa + pc.toNat % 64) 4)))) ∧
  (∀ (s : State) (page slot r : Nat) (p : Page) (i : Instr), turnOf s = .elem page slot → s.page? page = some p → p.region = some r →
    runs s (s.islandOf r) → decodeElem (BitVec.ofNat 32 (leNat ((p.image.drop (16 + 4 * slot)).take 4))) = .ok i → p.image.length = 4096 → slot < 64 →
    step s = after s (exec i { begun s with curPage := page, curSlot := slot })) ∧
  (∀ (s : State) (i : Instr), turnOf s = .event i → encodeNat i = [] → (∀ n ∈ (begun s).islandsOf i, runs s n) →
    let down := overAttach i = true ∧ s.dev.attach = false
    let queued := isRequest i = true ∧ s.teth.working = false ∧ s.teth.inbox ≠ []
    (¬down → ¬queued → step s = after s (exec i (begun s))) ∧ (down ∨ queued → step s = after s (.next (begun s)))) ∧
  (∀ (s : State) (i : Instr) (r : Request) (rest : List Request), turnOf s = .serve → s.teth.booted = true → s.teth.working = false →
    s.teth.inbox = r :: rest → r.instr = some i → isRequest i = true →
    step s = settled (exec i { begun s with teth := { s.teth with inbox := rest } }))

/-- R85: the core of a tile chooses a Ready thread whose next instruction could issue whenever there is one. It has waited 1,024 issues where any has, and is then the
lowest of those; else no Ready thread has a higher priority, and of those with its priority it is the next one, in cyclic order, after the
one that issued last. A thread whose event waits for a replay (R403) or a checkpoint's copy (R399) could not issue.
The model's choice: log 4, 142. -/
def Obligations.CoresChooseByPriority : Prop :=
  ∀ (s : State) (tile : Nat),
    (s.choose tile = none ↔ ∀ k t, ¬ReadyAt s tile k t) ∧
    ∀ k, s.choose tile = some k → ∃ t, ReadyAt s tile k t ∧
      ((∃ j u, ReadyAt s tile j u ∧ 1024 ≤ u.waitCount) → 1024 ≤ t.waitCount ∧ ∀ j u, ReadyAt s tile j u → 1024 ≤ u.waitCount → k ≤ j) ∧
      ((∀ j u, ReadyAt s tile j u → u.waitCount < 1024) →
        (∀ j u, ReadyAt s tile j u → u.prio ≤ t.prio) ∧
        let last := (s.tile tile).lastIssue.toList.getD t.prio 3
        ∀ j u, ReadyAt s tile j u → u.prio = t.prio → (k + 3 - last % 4) % 4 ≤ (j + 3 - last % 4) % 4)

/-- R26, R28, R32 to R46: these words, as the encoding tables of each family write them out, decode to these instructions. -/
def Obligations.WrittenOutWordsDecode : Prop :=
  (∀ e ∈ ([
    (0x00642800, 0, .add 3 4 5), (0x0463FFF8, 0, .addi 3 3 0xFFF8), (0x012A5803, 0, .mulh 9 10 11), (0x00470020, 0, .clz 2 7),
    (0x44000010, 0, .call 16), (0x48050000, 0, .jmp 5), (0x648947FE, 0, .st32 4 9 0 0x7FE), (0x60A2D020, 0, .ld32s 5 2 2 32),
    (0x70000000, 0, .phaseEnd), (0x70000001, 0, .phaseSync), (0x80450000, 0, .ringDef 2 5), (0x80040001, 0, .ringWait 0 4),
    (0xA2002000, 3, .mxCfg 4 3), (0xA02201C1, 0, .mxRunRing 2 7 0 0), (0xC2002000, 5, .spCfg 4 5), (0xC2304243, 1, .spStExt 0 0 8 9 3 1),
    (0xE0002140, 0, .cp 4 5 0 0), (0xE21031C1, 500, .cpExpect 6 7 1 0x1F4), (0xE9040000, 0, .qClaim 8 4), (0xE8042801, 0, .qPub 4 5),
    (0xF0642800, 0, .grLaunch 3 4 5), (0xF0000001, 0, .fireBegin), (0xF8000003, 0, .trap 3), (0xF8010000, 0, .tret)] : List (Half × Half × Instr)),
    decodeControl e.1 e.2.1 = .ok e.2.2) ∧
  (∀ e ∈ ([
    (0x01027FC1, .iadd 0x004 0x1FF 0 0 1), (0x23127FC0, .ffma 0x024 0x1FF 0 0 0), (0x41068440, .steer 0x00D 0x011 0 0),
    (0x42847FC8, .merge 0x108 0x1FF 0 1), (0x20A27FC5, .fadd 0x144 0x1FF 0 0 5), (0x332A7F21, .bfma2 0x054 0x1FC 2 0 1),
    (0x22827FD0, .fmul 0x104 0x1FF 1 0 0), (0x45807FC0, .acc 0x100 0x1FF 0 0 0), (0x2A0E7FC0, .fxp 0x01C 0x1FF 0 0),
    (0x390EFFC0, .f2i 0x01D 0x1FF 0 0 0), (0x50FFFFC0, .agl 0), (0x54027FC0, .rin 0x004 0x1FF 0)] : List (Half × Instr)), decodeElem e.1 = .ok e.2)

/-- R26 to R46: encoding and decoding agree. A well-formed instruction with words decodes from them to itself, an element operation on the
elements' stream, a control instruction on the control stream, its first word telling whether a second follows. What either decoder accepts
is well formed; an element word is its encoding, and so is a control word, but for the field of `at.ld` that R130 lets stand. -/
def Obligations.DecodeAndEncodeAgree : Prop :=
  (∀ (i : Instr) (w : Nat), wellFormed i = true → encodeNat i = [w] →
    w < 2 ^ 32 ∧ (isElement i = true → decodeElem (BitVec.ofNat 32 w) = .ok i) ∧
    (isElement i = false → needsExtension (BitVec.ofNat 32 w) = false ∧ ∀ y, decodeControl (BitVec.ofNat 32 w) y = .ok i)) ∧
  (∀ (i : Instr) (w x : Nat), wellFormed i = true → encodeNat i = [w, x] →
    w < 2 ^ 32 ∧ x < 2 ^ 32 ∧ isElement i = false ∧ needsExtension (BitVec.ofNat 32 w) = true ∧
      decodeControl (BitVec.ofNat 32 w) (BitVec.ofNat 32 x) = .ok i) ∧
  (∀ i : Instr, (encodeNat i).length ≤ 2) ∧
  (∀ (w : Half) (i : Instr), decodeElem w = .ok i → wellFormed i = true ∧ isElement i = true ∧ encodeNat i = [w.toNat]) ∧
  ∀ (w x : Half) (i : Instr), decodeControl w x = .ok i →
    wellFormed i = true ∧ isElement i = false ∧ ((∀ d a y z o, i ≠ .atLd d a y z o) → encodeNat i = [w.toNat] ∨ encodeNat i = [w.toNat, x.toNat])

/-- Memory and descriptors stay in canonical form (log 1) over every step of every state in which they are. -/
def Obligations.StepKeepsMemoryCanonical : Prop :=
  ∀ s u : State, Canonical s → step s = .next u → Canonical u
end

