-- ==== Sys2Proof/Laws/Energy.lean ====
section
/-! SUPPORT. The accuracy bounds of R339 that hold of an interval and of a trim after the first trim and at a steady
temperature (log 114). -/

namespace Sys2Proof.Machine

/-- What an interval leaves unattributed is at most 1 % of its rail energy (R339). -/
theorem State.railEnergy_residual (s : State) (measured attributed : Nat) (trimmed : s.dev.calGen > s.dev.calBase)
    (steady : Config.steady s.fresh = true) :
    100 * (s.railEnergy measured attributed - attributed) ≤ s.railEnergy measured attributed := by
  simp only [State.railEnergy, trimmed, steady, decide_true, Bool.and_self, if_true]
  omega

/-- A trim's factor, in parts per million, is within 2 % of 1, and so is not clamped (R338, R339). -/
theorem State.trimRatio_bounds (s : State) (island : Nat) (trimmed : s.dev.calGen > s.dev.calBase)
    (steady : Config.steady s.fresh = true) :
    980000 ≤ s.trimRatio island ∧ s.trimRatio island ≤ 1020410 := by
  simp only [State.trimRatio, trimmed, steady, decide_true, Bool.and_self, if_true]
  omega

end Sys2Proof.Machine
end

