-- ==== Sys2Proof/Laws/State.lean ====
section
/-! SUPPORT. What each named update of the state does to each field, and the laws of the sparse tables. -/

namespace Sys2Proof.Machine

/-! ### Tables by number -/

variable {α : Type}

@[simp] theorem tabGet?_tabSet_self (t : Tab α) (n : Nat) (v : α) : tabGet? (tabSet t n v) n = some v := by
  induction t with
  | nil => simp [tabSet, tabGet?]
  | cons e r ih =>
    obtain ⟨k, w⟩ := e
    unfold tabSet
    split
    · simp [tabGet?]
    · split
      · simp [tabGet?]
      · next h => simp [tabGet?, Ne.symm h, ih]

theorem tabGet?_tabSet_ne (t : Tab α) {n m : Nat} (v : α) (h : m ≠ n) : tabGet? (tabSet t n v) m = tabGet? t m := by
  induction t with
  | nil => simp [tabSet, tabGet?, Ne.symm h]
  | cons e r ih =>
    obtain ⟨k, w⟩ := e
    unfold tabSet
    split
    · simp [tabGet?, Ne.symm h]
    · split
      · next hk => subst hk; simp [tabGet?, Ne.symm h]
      · simp [tabGet?, ih]

@[simp] theorem tabSet_tabSet (t : Tab α) (n : Nat) (v w : α) : tabSet (tabSet t n v) n w = tabSet t n w := by
  induction t with
  | nil => simp [tabSet]
  | cons e r ih =>
    obtain ⟨k, u⟩ := e
    by_cases h1 : n < k
    · simp [tabSet, h1]
    · by_cases h2 : n = k
      · simp [tabSet, h2]
      · simp [tabSet, h1, h2, ih]

@[simp] theorem tabGet_tabSet_self (d : α) (t : Tab α) (n : Nat) (v : α) : tabGet d (tabSet t n v) n = v := by simp [tabGet]

theorem tabGet_tabSet_ne (d : α) (t : Tab α) {n m : Nat} (v : α) (h : m ≠ n) :
    tabGet d (tabSet t n v) m = tabGet d t m := by simp [tabGet, tabGet?_tabSet_ne t v h]

/-! ### One lemma per field per update -/

@[simp] theorem State.setThread_mem (s : State) (t : Thread) : (s.setThread t).mem = s.mem := rfl
@[simp] theorem State.setThread_descs (s : State) (t : Thread) : (s.setThread t).descs = s.descs := rfl
@[simp] theorem State.setThread_pubCount (s : State) (t : Thread) : (s.setThread t).pubCount = s.pubCount := rfl
@[simp] theorem State.setThread_hist (s : State) (t : Thread) : (s.setThread t).hist = s.hist := rfl
@[simp] theorem State.setThread_pubBy (s : State) (t : Thread) : (s.setThread t).pubBy = s.pubBy := rfl
@[simp] theorem State.setThread_badBlocks (s : State) (t : Thread) : (s.setThread t).badBlocks = s.badBlocks := rfl
@[simp] theorem State.setThread_softErrors (s : State) (t : Thread) : (s.setThread t).softErrors = s.softErrors := rfl
@[simp] theorem State.setThread_threads (s : State) (t : Thread) : (s.setThread t).threads = tabSet s.threads t.num t := rfl
@[simp] theorem State.setThread_tiles (s : State) (t : Thread) : (s.setThread t).tiles = s.tiles := rfl
@[simp] theorem State.setThread_pages (s : State) (t : Thread) : (s.setThread t).pages = s.pages := rfl
@[simp] theorem State.setThread_pageNext (s : State) (t : Thread) : (s.setThread t).pageNext = s.pageNext := rfl
@[simp] theorem State.setThread_insts (s : State) (t : Thread) : (s.setThread t).insts = s.insts := rfl
@[simp] theorem State.setThread_subs (s : State) (t : Thread) : (s.setThread t).subs = s.subs := rfl
@[simp] theorem State.setThread_queues (s : State) (t : Thread) : (s.setThread t).queues = s.queues := rfl
@[simp] theorem State.setThread_launching (s : State) (t : Thread) : (s.setThread t).launching = s.launching := rfl
@[simp] theorem State.setThread_parts (s : State) (t : Thread) : (s.setThread t).parts = s.parts := rfl
@[simp] theorem State.setThread_ckpts (s : State) (t : Thread) : (s.setThread t).ckpts = s.ckpts := rfl
@[simp] theorem State.setThread_accounts (s : State) (t : Thread) : (s.setThread t).accounts = s.accounts := rfl
@[simp] theorem State.setThread_meters (s : State) (t : Thread) : (s.setThread t).meters = s.meters := rfl
@[simp] theorem State.setThread_funcs (s : State) (t : Thread) : (s.setThread t).funcs = s.funcs := rfl
@[simp] theorem State.setThread_tlb (s : State) (t : Thread) : (s.setThread t).tlb = s.tlb := rfl
@[simp] theorem State.setThread_icache (s : State) (t : Thread) : (s.setThread t).icache = s.icache := rfl
@[simp] theorem State.setThread_arrays (s : State) (t : Thread) : (s.setThread t).arrays = s.arrays := rfl
@[simp] theorem State.setThread_links (s : State) (t : Thread) : (s.setThread t).links = s.links := rfl
@[simp] theorem State.setThread_held (s : State) (t : Thread) : (s.setThread t).held = s.held := rfl
@[simp] theorem State.setThread_dev (s : State) (t : Thread) : (s.setThread t).dev = s.dev := rfl
@[simp] theorem State.setThread_teth (s : State) (t : Thread) : (s.setThread t).teth = s.teth := rfl
@[simp] theorem State.setThread_cur (s : State) (t : Thread) : (s.setThread t).cur = s.cur := rfl
@[simp] theorem State.setThread_curPage (s : State) (t : Thread) : (s.setThread t).curPage = s.curPage := rfl
@[simp] theorem State.setThread_curSlot (s : State) (t : Thread) : (s.setThread t).curSlot = s.curSlot := rfl
@[simp] theorem State.setThread_turns (s : State) (t : Thread) : (s.setThread t).turns = s.turns := rfl
@[simp] theorem State.setThread_steps (s : State) (t : Thread) : (s.setThread t).steps = s.steps := rfl
@[simp] theorem State.setThread_fresh (s : State) (t : Thread) : (s.setThread t).fresh = s.fresh := rfl
@[simp] theorem State.setThread_nextCmd (s : State) (t : Thread) : (s.setThread t).nextCmd = s.nextCmd := rfl

@[simp] theorem State.setTile_mem (s : State) (n : Nat) (t : Tile) : (s.setTile n t).mem = s.mem := rfl
@[simp] theorem State.setTile_descs (s : State) (n : Nat) (t : Tile) : (s.setTile n t).descs = s.descs := rfl
@[simp] theorem State.setTile_pubCount (s : State) (n : Nat) (t : Tile) : (s.setTile n t).pubCount = s.pubCount := rfl
@[simp] theorem State.setTile_hist (s : State) (n : Nat) (t : Tile) : (s.setTile n t).hist = s.hist := rfl
@[simp] theorem State.setTile_pubBy (s : State) (n : Nat) (t : Tile) : (s.setTile n t).pubBy = s.pubBy := rfl
@[simp] theorem State.setTile_badBlocks (s : State) (n : Nat) (t : Tile) : (s.setTile n t).badBlocks = s.badBlocks := rfl
@[simp] theorem State.setTile_softErrors (s : State) (n : Nat) (t : Tile) : (s.setTile n t).softErrors = s.softErrors := rfl
@[simp] theorem State.setTile_threads (s : State) (n : Nat) (t : Tile) : (s.setTile n t).threads = s.threads := rfl
@[simp] theorem State.setTile_tiles (s : State) (n : Nat) (t : Tile) : (s.setTile n t).tiles = tabSet s.tiles n t := rfl
@[simp] theorem State.setTile_pages (s : State) (n : Nat) (t : Tile) : (s.setTile n t).pages = s.pages := rfl
@[simp] theorem State.setTile_pageNext (s : State) (n : Nat) (t : Tile) : (s.setTile n t).pageNext = s.pageNext := rfl
@[simp] theorem State.setTile_insts (s : State) (n : Nat) (t : Tile) : (s.setTile n t).insts = s.insts := rfl
@[simp] theorem State.setTile_subs (s : State) (n : Nat) (t : Tile) : (s.setTile n t).subs = s.subs := rfl
@[simp] theorem State.setTile_queues (s : State) (n : Nat) (t : Tile) : (s.setTile n t).queues = s.queues := rfl
@[simp] theorem State.setTile_launching (s : State) (n : Nat) (t : Tile) : (s.setTile n t).launching = s.launching := rfl
@[simp] theorem State.setTile_parts (s : State) (n : Nat) (t : Tile) : (s.setTile n t).parts = s.parts := rfl
@[simp] theorem State.setTile_ckpts (s : State) (n : Nat) (t : Tile) : (s.setTile n t).ckpts = s.ckpts := rfl
@[simp] theorem State.setTile_accounts (s : State) (n : Nat) (t : Tile) : (s.setTile n t).accounts = s.accounts := rfl
@[simp] theorem State.setTile_meters (s : State) (n : Nat) (t : Tile) : (s.setTile n t).meters = s.meters := rfl
@[simp] theorem State.setTile_funcs (s : State) (n : Nat) (t : Tile) : (s.setTile n t).funcs = s.funcs := rfl
@[simp] theorem State.setTile_tlb (s : State) (n : Nat) (t : Tile) : (s.setTile n t).tlb = s.tlb := rfl
@[simp] theorem State.setTile_icache (s : State) (n : Nat) (t : Tile) : (s.setTile n t).icache = s.icache := rfl
@[simp] theorem State.setTile_arrays (s : State) (n : Nat) (t : Tile) : (s.setTile n t).arrays = s.arrays := rfl
@[simp] theorem State.setTile_links (s : State) (n : Nat) (t : Tile) : (s.setTile n t).links = s.links := rfl
@[simp] theorem State.setTile_held (s : State) (n : Nat) (t : Tile) : (s.setTile n t).held = s.held := rfl
@[simp] theorem State.setTile_dev (s : State) (n : Nat) (t : Tile) : (s.setTile n t).dev = s.dev := rfl
@[simp] theorem State.setTile_teth (s : State) (n : Nat) (t : Tile) : (s.setTile n t).teth = s.teth := rfl
@[simp] theorem State.setTile_cur (s : State) (n : Nat) (t : Tile) : (s.setTile n t).cur = s.cur := rfl
@[simp] theorem State.setTile_curPage (s : State) (n : Nat) (t : Tile) : (s.setTile n t).curPage = s.curPage := rfl
@[simp] theorem State.setTile_curSlot (s : State) (n : Nat) (t : Tile) : (s.setTile n t).curSlot = s.curSlot := rfl
@[simp] theorem State.setTile_turns (s : State) (n : Nat) (t : Tile) : (s.setTile n t).turns = s.turns := rfl
@[simp] theorem State.setTile_steps (s : State) (n : Nat) (t : Tile) : (s.setTile n t).steps = s.steps := rfl
@[simp] theorem State.setTile_fresh (s : State) (n : Nat) (t : Tile) : (s.setTile n t).fresh = s.fresh := rfl
@[simp] theorem State.setTile_nextCmd (s : State) (n : Nat) (t : Tile) : (s.setTile n t).nextCmd = s.nextCmd := rfl

@[simp] theorem State.setPart_mem (s : State) (n : Nat) (p : Partition) : (s.setPart n p).mem = s.mem := rfl
@[simp] theorem State.setPart_descs (s : State) (n : Nat) (p : Partition) : (s.setPart n p).descs = s.descs := rfl
@[simp] theorem State.setPart_pubCount (s : State) (n : Nat) (p : Partition) : (s.setPart n p).pubCount = s.pubCount := rfl
@[simp] theorem State.setPart_hist (s : State) (n : Nat) (p : Partition) : (s.setPart n p).hist = s.hist := rfl
@[simp] theorem State.setPart_pubBy (s : State) (n : Nat) (p : Partition) : (s.setPart n p).pubBy = s.pubBy := rfl
@[simp] theorem State.setPart_badBlocks (s : State) (n : Nat) (p : Partition) : (s.setPart n p).badBlocks = s.badBlocks := rfl
@[simp] theorem State.setPart_softErrors (s : State) (n : Nat) (p : Partition) : (s.setPart n p).softErrors = s.softErrors := rfl
@[simp] theorem State.setPart_threads (s : State) (n : Nat) (p : Partition) : (s.setPart n p).threads = s.threads := rfl
@[simp] theorem State.setPart_tiles (s : State) (n : Nat) (p : Partition) : (s.setPart n p).tiles = s.tiles := rfl
@[simp] theorem State.setPart_pages (s : State) (n : Nat) (p : Partition) : (s.setPart n p).pages = s.pages := rfl
@[simp] theorem State.setPart_pageNext (s : State) (n : Nat) (p : Partition) : (s.setPart n p).pageNext = s.pageNext := rfl
@[simp] theorem State.setPart_insts (s : State) (n : Nat) (p : Partition) : (s.setPart n p).insts = s.insts := rfl
@[simp] theorem State.setPart_subs (s : State) (n : Nat) (p : Partition) : (s.setPart n p).subs = s.subs := rfl
@[simp] theorem State.setPart_queues (s : State) (n : Nat) (p : Partition) : (s.setPart n p).queues = s.queues := rfl
@[simp] theorem State.setPart_launching (s : State) (n : Nat) (p : Partition) : (s.setPart n p).launching = s.launching := rfl
@[simp] theorem State.setPart_parts (s : State) (n : Nat) (p : Partition) : (s.setPart n p).parts = tabSet s.parts n p := rfl
@[simp] theorem State.setPart_ckpts (s : State) (n : Nat) (p : Partition) : (s.setPart n p).ckpts = s.ckpts := rfl
@[simp] theorem State.setPart_accounts (s : State) (n : Nat) (p : Partition) : (s.setPart n p).accounts = s.accounts := rfl
@[simp] theorem State.setPart_meters (s : State) (n : Nat) (p : Partition) : (s.setPart n p).meters = s.meters := rfl
@[simp] theorem State.setPart_funcs (s : State) (n : Nat) (p : Partition) : (s.setPart n p).funcs = s.funcs := rfl
@[simp] theorem State.setPart_tlb (s : State) (n : Nat) (p : Partition) : (s.setPart n p).tlb = s.tlb := rfl
@[simp] theorem State.setPart_icache (s : State) (n : Nat) (p : Partition) : (s.setPart n p).icache = s.icache := rfl
@[simp] theorem State.setPart_arrays (s : State) (n : Nat) (p : Partition) : (s.setPart n p).arrays = s.arrays := rfl
@[simp] theorem State.setPart_links (s : State) (n : Nat) (p : Partition) : (s.setPart n p).links = s.links := rfl
@[simp] theorem State.setPart_held (s : State) (n : Nat) (p : Partition) : (s.setPart n p).held = s.held := rfl
@[simp] theorem State.setPart_dev (s : State) (n : Nat) (p : Partition) : (s.setPart n p).dev = s.dev := rfl
@[simp] theorem State.setPart_teth (s : State) (n : Nat) (p : Partition) : (s.setPart n p).teth = s.teth := rfl
@[simp] theorem State.setPart_cur (s : State) (n : Nat) (p : Partition) : (s.setPart n p).cur = s.cur := rfl
@[simp] theorem State.setPart_curPage (s : State) (n : Nat) (p : Partition) : (s.setPart n p).curPage = s.curPage := rfl
@[simp] theorem State.setPart_curSlot (s : State) (n : Nat) (p : Partition) : (s.setPart n p).curSlot = s.curSlot := rfl
@[simp] theorem State.setPart_turns (s : State) (n : Nat) (p : Partition) : (s.setPart n p).turns = s.turns := rfl
@[simp] theorem State.setPart_steps (s : State) (n : Nat) (p : Partition) : (s.setPart n p).steps = s.steps := rfl
@[simp] theorem State.setPart_fresh (s : State) (n : Nat) (p : Partition) : (s.setPart n p).fresh = s.fresh := rfl
@[simp] theorem State.setPart_nextCmd (s : State) (n : Nat) (p : Partition) : (s.setPart n p).nextCmd = s.nextCmd := rfl

@[simp] theorem State.setPage_mem (s : State) (p : Page) : (s.setPage p).mem = s.mem := rfl
@[simp] theorem State.setPage_descs (s : State) (p : Page) : (s.setPage p).descs = s.descs := rfl
@[simp] theorem State.setPage_pubCount (s : State) (p : Page) : (s.setPage p).pubCount = s.pubCount := rfl
@[simp] theorem State.setPage_hist (s : State) (p : Page) : (s.setPage p).hist = s.hist := rfl
@[simp] theorem State.setPage_pubBy (s : State) (p : Page) : (s.setPage p).pubBy = s.pubBy := rfl
@[simp] theorem State.setPage_badBlocks (s : State) (p : Page) : (s.setPage p).badBlocks = s.badBlocks := rfl
@[simp] theorem State.setPage_softErrors (s : State) (p : Page) : (s.setPage p).softErrors = s.softErrors := rfl
@[simp] theorem State.setPage_threads (s : State) (p : Page) : (s.setPage p).threads = s.threads := rfl
@[simp] theorem State.setPage_tiles (s : State) (p : Page) : (s.setPage p).tiles = s.tiles := rfl
@[simp] theorem State.setPage_pages (s : State) (p : Page) : (s.setPage p).pages = tabSet s.pages p.id p := rfl
@[simp] theorem State.setPage_pageNext (s : State) (p : Page) : (s.setPage p).pageNext = s.pageNext := rfl
@[simp] theorem State.setPage_insts (s : State) (p : Page) : (s.setPage p).insts = s.insts := rfl
@[simp] theorem State.setPage_subs (s : State) (p : Page) : (s.setPage p).subs = s.subs := rfl
@[simp] theorem State.setPage_queues (s : State) (p : Page) : (s.setPage p).queues = s.queues := rfl
@[simp] theorem State.setPage_launching (s : State) (p : Page) : (s.setPage p).launching = s.launching := rfl
@[simp] theorem State.setPage_parts (s : State) (p : Page) : (s.setPage p).parts = s.parts := rfl
@[simp] theorem State.setPage_ckpts (s : State) (p : Page) : (s.setPage p).ckpts = s.ckpts := rfl
@[simp] theorem State.setPage_accounts (s : State) (p : Page) : (s.setPage p).accounts = s.accounts := rfl
@[simp] theorem State.setPage_meters (s : State) (p : Page) : (s.setPage p).meters = s.meters := rfl
@[simp] theorem State.setPage_funcs (s : State) (p : Page) : (s.setPage p).funcs = s.funcs := rfl
@[simp] theorem State.setPage_tlb (s : State) (p : Page) : (s.setPage p).tlb = s.tlb := rfl
@[simp] theorem State.setPage_icache (s : State) (p : Page) : (s.setPage p).icache = s.icache := rfl
@[simp] theorem State.setPage_arrays (s : State) (p : Page) : (s.setPage p).arrays = s.arrays := rfl
@[simp] theorem State.setPage_links (s : State) (p : Page) : (s.setPage p).links = s.links := rfl
@[simp] theorem State.setPage_held (s : State) (p : Page) : (s.setPage p).held = s.held := rfl
@[simp] theorem State.setPage_dev (s : State) (p : Page) : (s.setPage p).dev = s.dev := rfl
@[simp] theorem State.setPage_teth (s : State) (p : Page) : (s.setPage p).teth = s.teth := rfl
@[simp] theorem State.setPage_cur (s : State) (p : Page) : (s.setPage p).cur = s.cur := rfl
@[simp] theorem State.setPage_curPage (s : State) (p : Page) : (s.setPage p).curPage = s.curPage := rfl
@[simp] theorem State.setPage_curSlot (s : State) (p : Page) : (s.setPage p).curSlot = s.curSlot := rfl
@[simp] theorem State.setPage_turns (s : State) (p : Page) : (s.setPage p).turns = s.turns := rfl
@[simp] theorem State.setPage_steps (s : State) (p : Page) : (s.setPage p).steps = s.steps := rfl
@[simp] theorem State.setPage_fresh (s : State) (p : Page) : (s.setPage p).fresh = s.fresh := rfl
@[simp] theorem State.setPage_nextCmd (s : State) (p : Page) : (s.setPage p).nextCmd = s.nextCmd := rfl

@[simp] theorem State.setAccount_mem (s : State) (n : Nat) (a : Account) : (s.setAccount n a).mem = s.mem := rfl
@[simp] theorem State.setAccount_descs (s : State) (n : Nat) (a : Account) : (s.setAccount n a).descs = s.descs := rfl
@[simp] theorem State.setAccount_pubCount (s : State) (n : Nat) (a : Account) : (s.setAccount n a).pubCount = s.pubCount := rfl
@[simp] theorem State.setAccount_hist (s : State) (n : Nat) (a : Account) : (s.setAccount n a).hist = s.hist := rfl
@[simp] theorem State.setAccount_pubBy (s : State) (n : Nat) (a : Account) : (s.setAccount n a).pubBy = s.pubBy := rfl
@[simp] theorem State.setAccount_badBlocks (s : State) (n : Nat) (a : Account) : (s.setAccount n a).badBlocks = s.badBlocks := rfl
@[simp] theorem State.setAccount_softErrors (s : State) (n : Nat) (a : Account) : (s.setAccount n a).softErrors = s.softErrors := rfl
@[simp] theorem State.setAccount_threads (s : State) (n : Nat) (a : Account) : (s.setAccount n a).threads = s.threads := rfl
@[simp] theorem State.setAccount_tiles (s : State) (n : Nat) (a : Account) : (s.setAccount n a).tiles = s.tiles := rfl
@[simp] theorem State.setAccount_pages (s : State) (n : Nat) (a : Account) : (s.setAccount n a).pages = s.pages := rfl
@[simp] theorem State.setAccount_pageNext (s : State) (n : Nat) (a : Account) : (s.setAccount n a).pageNext = s.pageNext := rfl
@[simp] theorem State.setAccount_insts (s : State) (n : Nat) (a : Account) : (s.setAccount n a).insts = s.insts := rfl
@[simp] theorem State.setAccount_subs (s : State) (n : Nat) (a : Account) : (s.setAccount n a).subs = s.subs := rfl
@[simp] theorem State.setAccount_queues (s : State) (n : Nat) (a : Account) : (s.setAccount n a).queues = s.queues := rfl
@[simp] theorem State.setAccount_launching (s : State) (n : Nat) (a : Account) : (s.setAccount n a).launching = s.launching := rfl
@[simp] theorem State.setAccount_parts (s : State) (n : Nat) (a : Account) : (s.setAccount n a).parts = s.parts := rfl
@[simp] theorem State.setAccount_ckpts (s : State) (n : Nat) (a : Account) : (s.setAccount n a).ckpts = s.ckpts := rfl
@[simp] theorem State.setAccount_accounts (s : State) (n : Nat) (a : Account) : (s.setAccount n a).accounts = tabSet s.accounts n a := rfl
@[simp] theorem State.setAccount_meters (s : State) (n : Nat) (a : Account) : (s.setAccount n a).meters = s.meters := rfl
@[simp] theorem State.setAccount_funcs (s : State) (n : Nat) (a : Account) : (s.setAccount n a).funcs = s.funcs := rfl
@[simp] theorem State.setAccount_tlb (s : State) (n : Nat) (a : Account) : (s.setAccount n a).tlb = s.tlb := rfl
@[simp] theorem State.setAccount_icache (s : State) (n : Nat) (a : Account) : (s.setAccount n a).icache = s.icache := rfl
@[simp] theorem State.setAccount_arrays (s : State) (n : Nat) (a : Account) : (s.setAccount n a).arrays = s.arrays := rfl
@[simp] theorem State.setAccount_links (s : State) (n : Nat) (a : Account) : (s.setAccount n a).links = s.links := rfl
@[simp] theorem State.setAccount_held (s : State) (n : Nat) (a : Account) : (s.setAccount n a).held = s.held := rfl
@[simp] theorem State.setAccount_dev (s : State) (n : Nat) (a : Account) : (s.setAccount n a).dev = s.dev := rfl
@[simp] theorem State.setAccount_teth (s : State) (n : Nat) (a : Account) : (s.setAccount n a).teth = s.teth := rfl
@[simp] theorem State.setAccount_cur (s : State) (n : Nat) (a : Account) : (s.setAccount n a).cur = s.cur := rfl
@[simp] theorem State.setAccount_curPage (s : State) (n : Nat) (a : Account) : (s.setAccount n a).curPage = s.curPage := rfl
@[simp] theorem State.setAccount_curSlot (s : State) (n : Nat) (a : Account) : (s.setAccount n a).curSlot = s.curSlot := rfl
@[simp] theorem State.setAccount_turns (s : State) (n : Nat) (a : Account) : (s.setAccount n a).turns = s.turns := rfl
@[simp] theorem State.setAccount_steps (s : State) (n : Nat) (a : Account) : (s.setAccount n a).steps = s.steps := rfl
@[simp] theorem State.setAccount_fresh (s : State) (n : Nat) (a : Account) : (s.setAccount n a).fresh = s.fresh := rfl
@[simp] theorem State.setAccount_nextCmd (s : State) (n : Nat) (a : Account) : (s.setAccount n a).nextCmd = s.nextCmd := rfl

@[simp] theorem State.setInst_mem (s : State) (i : Inst) : (s.setInst i).mem = s.mem := rfl
@[simp] theorem State.setInst_descs (s : State) (i : Inst) : (s.setInst i).descs = s.descs := rfl
@[simp] theorem State.setInst_pubCount (s : State) (i : Inst) : (s.setInst i).pubCount = s.pubCount := rfl
@[simp] theorem State.setInst_hist (s : State) (i : Inst) : (s.setInst i).hist = s.hist := rfl
@[simp] theorem State.setInst_pubBy (s : State) (i : Inst) : (s.setInst i).pubBy = s.pubBy := rfl
@[simp] theorem State.setInst_badBlocks (s : State) (i : Inst) : (s.setInst i).badBlocks = s.badBlocks := rfl
@[simp] theorem State.setInst_softErrors (s : State) (i : Inst) : (s.setInst i).softErrors = s.softErrors := rfl
@[simp] theorem State.setInst_threads (s : State) (i : Inst) : (s.setInst i).threads = s.threads := rfl
@[simp] theorem State.setInst_tiles (s : State) (i : Inst) : (s.setInst i).tiles = s.tiles := rfl
@[simp] theorem State.setInst_pages (s : State) (i : Inst) : (s.setInst i).pages = s.pages := rfl
@[simp] theorem State.setInst_pageNext (s : State) (i : Inst) : (s.setInst i).pageNext = s.pageNext := rfl
@[simp] theorem State.setInst_insts (s : State) (i : Inst) : (s.setInst i).insts = s.insts.map fun j => if j.part = i.part ∧ j.num = i.num then i else j := rfl
@[simp] theorem State.setInst_subs (s : State) (i : Inst) : (s.setInst i).subs = s.subs := rfl
@[simp] theorem State.setInst_queues (s : State) (i : Inst) : (s.setInst i).queues = s.queues := rfl
@[simp] theorem State.setInst_launching (s : State) (i : Inst) : (s.setInst i).launching = s.launching := rfl
@[simp] theorem State.setInst_parts (s : State) (i : Inst) : (s.setInst i).parts = s.parts := rfl
@[simp] theorem State.setInst_ckpts (s : State) (i : Inst) : (s.setInst i).ckpts = s.ckpts := rfl
@[simp] theorem State.setInst_accounts (s : State) (i : Inst) : (s.setInst i).accounts = s.accounts := rfl
@[simp] theorem State.setInst_meters (s : State) (i : Inst) : (s.setInst i).meters = s.meters := rfl
@[simp] theorem State.setInst_funcs (s : State) (i : Inst) : (s.setInst i).funcs = s.funcs := rfl
@[simp] theorem State.setInst_tlb (s : State) (i : Inst) : (s.setInst i).tlb = s.tlb := rfl
@[simp] theorem State.setInst_icache (s : State) (i : Inst) : (s.setInst i).icache = s.icache := rfl
@[simp] theorem State.setInst_arrays (s : State) (i : Inst) : (s.setInst i).arrays = s.arrays := rfl
@[simp] theorem State.setInst_links (s : State) (i : Inst) : (s.setInst i).links = s.links := rfl
@[simp] theorem State.setInst_held (s : State) (i : Inst) : (s.setInst i).held = s.held := rfl
@[simp] theorem State.setInst_dev (s : State) (i : Inst) : (s.setInst i).dev = s.dev := rfl
@[simp] theorem State.setInst_teth (s : State) (i : Inst) : (s.setInst i).teth = s.teth := rfl
@[simp] theorem State.setInst_cur (s : State) (i : Inst) : (s.setInst i).cur = s.cur := rfl
@[simp] theorem State.setInst_curPage (s : State) (i : Inst) : (s.setInst i).curPage = s.curPage := rfl
@[simp] theorem State.setInst_curSlot (s : State) (i : Inst) : (s.setInst i).curSlot = s.curSlot := rfl
@[simp] theorem State.setInst_turns (s : State) (i : Inst) : (s.setInst i).turns = s.turns := rfl
@[simp] theorem State.setInst_steps (s : State) (i : Inst) : (s.setInst i).steps = s.steps := rfl
@[simp] theorem State.setInst_fresh (s : State) (i : Inst) : (s.setInst i).fresh = s.fresh := rfl
@[simp] theorem State.setInst_nextCmd (s : State) (i : Inst) : (s.setInst i).nextCmd = s.nextCmd := rfl

@[simp] theorem State.setSub_mem (s : State) (u : Sub) : (s.setSub u).mem = s.mem := rfl
@[simp] theorem State.setSub_descs (s : State) (u : Sub) : (s.setSub u).descs = s.descs := rfl
@[simp] theorem State.setSub_pubCount (s : State) (u : Sub) : (s.setSub u).pubCount = s.pubCount := rfl
@[simp] theorem State.setSub_hist (s : State) (u : Sub) : (s.setSub u).hist = s.hist := rfl
@[simp] theorem State.setSub_pubBy (s : State) (u : Sub) : (s.setSub u).pubBy = s.pubBy := rfl
@[simp] theorem State.setSub_badBlocks (s : State) (u : Sub) : (s.setSub u).badBlocks = s.badBlocks := rfl
@[simp] theorem State.setSub_softErrors (s : State) (u : Sub) : (s.setSub u).softErrors = s.softErrors := rfl
@[simp] theorem State.setSub_threads (s : State) (u : Sub) : (s.setSub u).threads = s.threads := rfl
@[simp] theorem State.setSub_tiles (s : State) (u : Sub) : (s.setSub u).tiles = s.tiles := rfl
@[simp] theorem State.setSub_pages (s : State) (u : Sub) : (s.setSub u).pages = s.pages := rfl
@[simp] theorem State.setSub_pageNext (s : State) (u : Sub) : (s.setSub u).pageNext = s.pageNext := rfl
@[simp] theorem State.setSub_insts (s : State) (u : Sub) : (s.setSub u).insts = s.insts := rfl
@[simp] theorem State.setSub_subs (s : State) (u : Sub) : (s.setSub u).subs = s.subs.map fun x => if x.id = u.id then u else x := rfl
@[simp] theorem State.setSub_queues (s : State) (u : Sub) : (s.setSub u).queues = s.queues := rfl
@[simp] theorem State.setSub_launching (s : State) (u : Sub) : (s.setSub u).launching = s.launching := rfl
@[simp] theorem State.setSub_parts (s : State) (u : Sub) : (s.setSub u).parts = s.parts := rfl
@[simp] theorem State.setSub_ckpts (s : State) (u : Sub) : (s.setSub u).ckpts = s.ckpts := rfl
@[simp] theorem State.setSub_accounts (s : State) (u : Sub) : (s.setSub u).accounts = s.accounts := rfl
@[simp] theorem State.setSub_meters (s : State) (u : Sub) : (s.setSub u).meters = s.meters := rfl
@[simp] theorem State.setSub_funcs (s : State) (u : Sub) : (s.setSub u).funcs = s.funcs := rfl
@[simp] theorem State.setSub_tlb (s : State) (u : Sub) : (s.setSub u).tlb = s.tlb := rfl
@[simp] theorem State.setSub_icache (s : State) (u : Sub) : (s.setSub u).icache = s.icache := rfl
@[simp] theorem State.setSub_arrays (s : State) (u : Sub) : (s.setSub u).arrays = s.arrays := rfl
@[simp] theorem State.setSub_links (s : State) (u : Sub) : (s.setSub u).links = s.links := rfl
@[simp] theorem State.setSub_held (s : State) (u : Sub) : (s.setSub u).held = s.held := rfl
@[simp] theorem State.setSub_dev (s : State) (u : Sub) : (s.setSub u).dev = s.dev := rfl
@[simp] theorem State.setSub_teth (s : State) (u : Sub) : (s.setSub u).teth = s.teth := rfl
@[simp] theorem State.setSub_cur (s : State) (u : Sub) : (s.setSub u).cur = s.cur := rfl
@[simp] theorem State.setSub_curPage (s : State) (u : Sub) : (s.setSub u).curPage = s.curPage := rfl
@[simp] theorem State.setSub_curSlot (s : State) (u : Sub) : (s.setSub u).curSlot = s.curSlot := rfl
@[simp] theorem State.setSub_turns (s : State) (u : Sub) : (s.setSub u).turns = s.turns := rfl
@[simp] theorem State.setSub_steps (s : State) (u : Sub) : (s.setSub u).steps = s.steps := rfl
@[simp] theorem State.setSub_fresh (s : State) (u : Sub) : (s.setSub u).fresh = s.fresh := rfl
@[simp] theorem State.setSub_nextCmd (s : State) (u : Sub) : (s.setSub u).nextCmd = s.nextCmd := rfl

/-! ### Reading back -/

@[simp] theorem State.thread?_setThread (s : State) (t : Thread) : (s.setThread t).thread? t.num = some t := by
  simp [State.thread?]
theorem State.thread?_setThread_ne (s : State) (t : Thread) {n : Nat} (h : n ≠ t.num) :
    (s.setThread t).thread? n = s.thread? n := by simp [State.thread?, tabGet?_tabSet_ne _ _ h]
@[simp] theorem State.tile_setTile (s : State) (n : Nat) (t : Tile) : (s.setTile n t).tile n = t := by simp [State.tile]
theorem State.tile_setTile_ne (s : State) {n m : Nat} (t : Tile) (h : m ≠ n) :
    (s.setTile n t).tile m = s.tile m := by simp [State.tile, tabGet_tabSet_ne _ _ _ h]
@[simp] theorem State.part_setPart (s : State) (n : Nat) (p : Partition) : (s.setPart n p).part n = p := by simp [State.part]
theorem State.part_setPart_ne (s : State) {n m : Nat} (p : Partition) (h : m ≠ n) :
    (s.setPart n p).part m = s.part m := by simp [State.part, tabGet_tabSet_ne _ _ _ h]
@[simp] theorem State.page?_setPage (s : State) (p : Page) : (s.setPage p).page? p.id = some p := by simp [State.page?]
@[simp] theorem State.account_setAccount (s : State) (n : Nat) (a : Account) : (s.setAccount n a).account n = a := by
  simp [State.account]
theorem State.account_setAccount_ne (s : State) {n m : Nat} (a : Account) (h : m ≠ n) :
    (s.setAccount n a).account m = s.account m := by simp [State.account, tabGet_tabSet_ne _ _ _ h]
@[simp] theorem State.tile_setThread (s : State) (t : Thread) (n : Nat) : (s.setThread t).tile n = s.tile n := rfl
@[simp] theorem State.part_setThread (s : State) (t : Thread) (n : Nat) : (s.setThread t).part n = s.part n := rfl
@[simp] theorem State.page?_setThread (s : State) (t : Thread) (n : Nat) : (s.setThread t).page? n = s.page? n := rfl
@[simp] theorem State.inst?_setThread (s : State) (t : Thread) (p n : Nat) : (s.setThread t).inst? p n = s.inst? p n := rfl
@[simp] theorem State.thread?_setTile (s : State) (n : Nat) (t : Tile) (m : Nat) : (s.setTile n t).thread? m = s.thread? m := rfl
@[simp] theorem State.part_setTile (s : State) (n : Nat) (t : Tile) (m : Nat) : (s.setTile n t).part m = s.part m := rfl
@[simp] theorem State.thread?_setPart (s : State) (n : Nat) (p : Partition) (m : Nat) : (s.setPart n p).thread? m = s.thread? m := rfl
@[simp] theorem State.tile_setPart (s : State) (n : Nat) (p : Partition) (m : Nat) : (s.setPart n p).tile m = s.tile m := rfl
@[simp] theorem State.readByte_setThread (s : State) (t : Thread) (a : Nat) : (s.setThread t).readByte a = s.readByte a := rfl
@[simp] theorem State.readByte_setTile (s : State) (n : Nat) (t : Tile) (a : Nat) : (s.setTile n t).readByte a = s.readByte a := rfl
@[simp] theorem State.readByte_setPart (s : State) (n : Nat) (p : Partition) (a : Nat) : (s.setPart n p).readByte a = s.readByte a := rfl

/-! ### Registers: the hard-wired ones, and read after write -/

@[simp] theorem Thread.reg_zero (t : Thread) : t.reg 0 = 0 := rfl
@[simp] theorem Thread.setReg_zero (t : Thread) (v : Word) : t.setReg 0 v = t := rfl
@[simp] theorem Thread.pred_zero (t : Thread) : t.pred 0 = true := rfl
@[simp] theorem Thread.setPred_zero (t : Thread) (v : Bool) : t.setPred 0 v = t := rfl
theorem Thread.reg_setReg_self (t : Thread) {r : Nat} (v : Word) (h0 : r ≠ 0) (h : r < 32) : (t.setReg r v).reg r = v := by
  simp [Thread.reg, Thread.setReg, h0, h]
theorem Thread.reg_setReg_ne (t : Thread) {r q : Nat} (v : Word) (h : q ≠ r) : (t.setReg r v).reg q = t.reg q := by
  unfold Thread.reg Thread.setReg
  by_cases h0 : r = 0 <;> by_cases hq : q = 0 <;> simp [h0, hq, Ne.symm h]

end Sys2Proof.Machine
end

