-- ==== Sys2Proof/Laws/Memory.lean ====
section
/-! SUPPORT. The canonical form of sparse lists, kept by every operation that writes one, and read after write. -/

namespace Sys2Proof.Machine

variable {α : Type} [DecidableEq α]

/-- In a canonical list nothing is listed at or below a number that stands before it. -/
theorem sparseGet_of_le (d : α) {k : Nat} {v : α} {r : List (Nat × α)} (h : sparseWf d ((k, v) :: r)) {n : Nat} (hn : n ≤ k) :
    sparseGet d r n = d := by
  induction r generalizing k v with
  | nil => rfl
  | cons e r ih =>
    obtain ⟨k', v'⟩ := e
    simp only [sparseWf, Bool.and_eq_true, decide_eq_true_eq] at h
    obtain ⟨⟨hk, -⟩, hr⟩ := h
    have : k' ≠ n := by omega
    simp [sparseGet, this, ih hr (by omega)]

/-- The rest of a canonical list is canonical. -/
theorem sparseWf_tail (d : α) {e : Nat × α} {r : List (Nat × α)} (h : sparseWf d (e :: r)) : sparseWf d r := by
  cases r with
  | nil => rfl
  | cons f r => simp only [sparseWf, Bool.and_eq_true] at h; exact h.2

/-- What may stand before a canonical list. -/
theorem sparseWf_cons (d : α) {k : Nat} {v : α} {r : List (Nat × α)} (hv : v ≠ d) (hr : sparseWf d r)
    (hk : ∀ k' w r', r = (k', w) :: r' → k < k') : sparseWf d ((k, v) :: r) := by
  cases r with
  | nil => simp [sparseWf, hv]
  | cons f r => obtain ⟨k', w⟩ := f; simp [sparseWf, hv, hr, hk k' w r rfl]

/-- The head of a list after a write is no smaller than the smaller of the old head and the number written. -/
theorem sparseSet_head (d : α) (l : List (Nat × α)) (n : Nat) (v : α) {k : Nat} (hn : k < n)
    (hl : ∀ k' w r', l = (k', w) :: r' → k < k') (hs : sparseWf d l) :
    ∀ k' w r', sparseSet d l n v = (k', w) :: r' → k < k' := by
  cases l with
  | nil =>
    intro k' w r' h
    by_cases hv : v = d
    · simp [sparseSet, hv] at h
    · simp [sparseSet, hv] at h; omega
  | cons e r =>
    obtain ⟨j, u⟩ := e
    have hj := hl j u r rfl
    intro k' w r' h
    unfold sparseSet at h
    split at h
    · split at h <;> simp at h <;> omega
    · split at h
      · split at h
        · subst h
          simp only [sparseWf, Bool.and_eq_true, decide_eq_true_eq] at hs
          omega
        · simp at h; omega
      · simp at h; omega

/-- Setting a value keeps the canonical form. -/
theorem sparseSet_wf (d : α) (l : List (Nat × α)) (n : Nat) (v : α) (h : sparseWf d l) : sparseWf d (sparseSet d l n v) := by
  induction l with
  | nil => by_cases hv : v = d <;> simp [sparseSet, sparseWf, hv]
  | cons e r ih =>
    obtain ⟨k, w⟩ := e
    have hw : w ≠ d := by
      cases r with
      | nil => simpa [sparseWf] using h
      | cons f r => simp only [sparseWf, Bool.and_eq_true, decide_eq_true_eq] at h; exact h.1.2
    have hr := sparseWf_tail d h
    have hd : ∀ k' u r', r = (k', u) :: r' → k < k' := by
      intro k' u r' hq; subst hq
      simp only [sparseWf, Bool.and_eq_true, decide_eq_true_eq] at h; exact h.1.1
    unfold sparseSet
    split
    · split
      · exact h
      · next hn hv => exact sparseWf_cons d hv h fun k' u r' hq => by simp at hq; omega
    · split
      · next hnk =>
        split
        · exact hr
        · next hv => exact sparseWf_cons d hv hr (by subst hnk; exact hd)
      · next h1 h2 => exact sparseWf_cons d hw (ih hr) (sparseSet_head d r n v (by omega) hd hr)

/-- Read after write at the same number. -/
theorem sparseGet_sparseSet_self (d : α) (l : List (Nat × α)) (n : Nat) (v : α) (h : sparseWf d l) :
    sparseGet d (sparseSet d l n v) n = v := by
  induction l with
  | nil => by_cases hv : v = d <;> simp [sparseSet, sparseGet, hv]
  | cons e r ih =>
    obtain ⟨k, w⟩ := e
    unfold sparseSet
    split
    · next hn =>
      split
      · next hv =>
        have : k ≠ n := by omega
        simp [sparseGet, this, hv, sparseGet_of_le d h (Nat.le_of_lt hn)]
      · simp [sparseGet]
    · split
      · next hk =>
        subst hk
        split
        · next hv => rw [hv]; exact sparseGet_of_le d h (Nat.le_refl _)
        · simp [sparseGet]
      · next h1 h2 => simp [sparseGet, Ne.symm h2, ih (sparseWf_tail d h)]

/-- A write leaves every other number alone. -/
theorem sparseGet_sparseSet_ne (d : α) (l : List (Nat × α)) {n m : Nat} (v : α) (h : m ≠ n) :
    sparseGet d (sparseSet d l n v) m = sparseGet d l m := by
  induction l with
  | nil => by_cases hv : v = d <;> simp [sparseSet, sparseGet, hv, Ne.symm h]
  | cons e r ih =>
    obtain ⟨k, w⟩ := e
    unfold sparseSet
    split
    · split <;> simp [sparseGet, Ne.symm h]
    · split
      · next hk => subst hk; split <;> simp [sparseGet, Ne.symm h]
      · simp [sparseGet, ih]

/-- Writing bytes keeps memory canonical. -/
theorem Memory.write_wf (m : Memory) (cells : List (Nat × Byte)) (h : m.wf) : (Memory.write m cells).wf := by
  induction cells generalizing m with
  | nil => exact h
  | cons c r ih => obtain ⟨a, b⟩ := c; exact ih _ (sparseSet_wf _ _ _ _ h)

/-- Bytes that are not written read as before. -/
theorem Memory.write_frame (m : Memory) (cells : List (Nat × Byte)) {a : Nat} (h : a ∉ cells.map Prod.fst) :
    sparseGet 0 (Memory.write m cells) a = sparseGet 0 m a := by
  induction cells generalizing m with
  | nil => rfl
  | cons c r ih =>
    obtain ⟨k, b⟩ := c
    simp only [List.map_cons, List.mem_cons, not_or] at h
    rw [Memory.write, ih _ h.2, sparseGet_sparseSet_ne _ _ _ h.1]

/-- In a canonical list every later number is larger. -/
theorem sparseWf_above (d : α) {k : Nat} {v : α} {r : List (Nat × α)} (h : sparseWf d ((k, v) :: r)) : ∀ e ∈ r, k < e.1 := by
  induction r generalizing k v with
  | nil => simp
  | cons f r ih =>
    obtain ⟨k', v'⟩ := f
    have hr := sparseWf_tail d h
    simp only [sparseWf, Bool.and_eq_true, decide_eq_true_eq] at h
    intro e he
    rcases List.mem_cons.1 he with rfl | he
    · exact h.1.1
    · exact Nat.lt_trans h.1.1 (ih hr e he)

/-- Taking a part of a canonical memory's addresses away keeps it canonical (a device reset, R14). -/
theorem sparseWf_filter (d : α) (p : Nat × α → Bool) (l : List (Nat × α)) (h : sparseWf d l) : sparseWf d (l.filter p) := by
  induction l with
  | nil => rfl
  | cons e r ih =>
    obtain ⟨k, v⟩ := e
    have hr := sparseWf_tail d h
    have hv : v ≠ d := by
      cases r with
      | nil => simpa [sparseWf] using h
      | cons f r => simp only [sparseWf, Bool.and_eq_true, decide_eq_true_eq] at h; exact h.1.2
    have above : ∀ e ∈ r, k < e.1 := sparseWf_above d h
    rw [List.filter_cons]
    split
    · exact sparseWf_cons d hv (ih hr) fun k' w r' hq =>
        above (k', w) (List.mem_of_mem_filter (p := p) (by rw [hq]; simp))
    · exact ih hr

/-! ### Publications -/

@[simp] theorem State.notice_mem (s : State) : s.notice.mem = s.mem := rfl
@[simp] theorem State.notice_descs (s : State) : s.notice.descs = s.descs := rfl

/-- A publication writes its cells and nothing else. -/
theorem State.publish_mem (s : State) (cells : List (Nat × Byte)) (blocks : List (Nat × BitVec 16)) :
    (s.publish cells blocks).mem = s.mem.write cells := by
  unfold State.publish
  split
  · next h => rw [h.1]; rfl
  · rfl

/-- A publication keeps memory canonical. -/
theorem State.publish_wf (s : State) (cells : List (Nat × Byte)) (blocks : List (Nat × BitVec 16)) (h : s.mem.wf) :
    (s.publish cells blocks).mem.wf := by
  rw [State.publish_mem]; exact Memory.write_wf _ _ h

/-- A byte that a publication does not write reads as before. -/
theorem State.publish_frame (s : State) (cells : List (Nat × Byte)) (blocks : List (Nat × BitVec 16)) {a : Nat}
    (h : a ∉ cells.map Prod.fst) : (s.publish cells blocks).readByte a = s.readByte a := by
  unfold State.readByte; rw [State.publish_mem]; exact Memory.write_frame _ _ h

/-- Descriptors that are not written stay. -/
theorem writeDescs_wf (ds : List (Nat × BitVec 16)) (l : List (Nat × BitVec 16)) (h : sparseWf 0 ds) : sparseWf 0 (writeDescs ds l) := by
  induction l generalizing ds with
  | nil => exact h
  | cons c r ih => obtain ⟨a, b⟩ := c; exact ih _ (sparseSet_wf _ _ _ _ h)

/-- Reset memory lists nothing. -/
theorem State.reset_mem_wf : State.reset.mem.wf := rfl

end Sys2Proof.Machine
end

