-- ==== Sys2Proof/Laws/Ops.lean ====
section
/-! SUPPORT. One lemma for each shared operation that says once what it can do; later proofs cite it. -/

namespace Sys2Proof.Machine

/-! ### Charges and traces: the fields they touch -/

/-- A flush of an account by a meter touches the account table alone. -/
theorem State.flushFold_frame (s : State) (l : List (Nat × Nat)) :
    l.foldl (fun s e => s.setAccount e.1 ((s.account e.1).flush e.2)) s =
      { s with accounts := (l.foldl (fun s e => s.setAccount e.1 ((s.account e.1).flush e.2)) s).accounts } := by
  induction l generalizing s with
  | nil => rfl
  | cons e r ih => rw [List.foldl_cons, ih]; rfl

/-- A charge touches meters and accounts alone (R334). -/
theorem State.charge_frame (s : State) (i a c n : Nat) :
    s.charge i a c n = { s with meters := (s.charge i a c n).meters, accounts := (s.charge i a c n).accounts } := by
  simp only [State.charge]
  rw [State.flushFold_frame]

/-- A charge at a thread's tile touches meters and accounts alone. -/
theorem State.chargeThread_frame (s : State) (t : Thread) (c n : Nat) :
    s.chargeThread t c n =
      { s with meters := (s.chargeThread t c n).meters, accounts := (s.chargeThread t c n).accounts } :=
  State.charge_frame ..

/-- Path charges touch meters, accounts and the counter of free values alone (R151). -/
theorem State.chargePath_frame (s : State) (i a : Nat) (cs : List Nat) :
    s.chargePath i a cs = { s with
      meters := (s.chargePath i a cs).meters, accounts := (s.chargePath i a cs).accounts
      fresh := (s.chargePath i a cs).fresh } := by
  induction cs generalizing s with
  | nil => rfl
  | cons c r ih =>
    have h : s.chargePath i a (c :: r) =
      State.chargePath { s.charge i a c (Config.pathUnits s.fresh c) with fresh := s.fresh + 1 } i a r := rfl
    rw [h, ih]
    rw [State.charge_frame s i a c]

/-- The charges of lines that move touch meters, accounts and the counter of free values alone (R151). -/
theorem State.chargeFrom_frame (s : State) (i a d : Nat) (o : Option Nat) (pa n : Nat) (c : Bool) :
    s.chargeFrom i a d o pa n c = { s with
      meters := (s.chargeFrom i a d o pa n c).meters, accounts := (s.chargeFrom i a d o pa n c).accounts
      fresh := (s.chargeFrom i a d o pa n c).fresh } := by
  have both (k m : Nat) (cs : List Nat) : (s.charge i a k m).chargePath i a cs = { s with
      meters := ((s.charge i a k m).chargePath i a cs).meters, accounts := ((s.charge i a k m).chargePath i a cs).accounts
      fresh := ((s.charge i a k m).chargePath i a cs).fresh } := by
    rw [State.chargePath_frame, State.charge_frame s i a k m]
  unfold State.chargeFrom
  split
  · split
    · exact State.chargePath_frame ..
    · exact both ..
  · dsimp only
    split
    · rw [State.charge_frame s i a]
    · exact both ..
  · exact both ..
  · rfl

/-- The same for the lines that an agent of a tile moves. -/
theorem State.chargeMove_frame (s : State) (i a t pa n : Nat) (c : Bool) :
    s.chargeMove i a t pa n c = { s with
      meters := (s.chargeMove i a t pa n c).meters, accounts := (s.chargeMove i a t pa n c).accounts
      fresh := (s.chargeMove i a t pa n c).fresh } :=
  State.chargeFrom_frame ..

/-- The charges of a translation touch meters, accounts and the counter of free values alone (R151). -/
theorem State.chargeLookup_frame (s : State) (i a d p va : Nat) :
    s.chargeLookup i a d p va = { s with
      meters := (s.chargeLookup i a d p va).meters, accounts := (s.chargeLookup i a d p va).accounts
      fresh := (s.chargeLookup i a d p va).fresh } := by
  unfold State.chargeLookup
  dsimp only
  split
  · rw [State.charge_frame s i a]
  · rw [State.chargePath_frame, State.charge_frame, State.charge_frame s i a]

/-- A lookup touches the slices alone (R143). -/
theorem State.lookup_frame (s : State) (d p va : Nat) : (s.lookup d p va).1 = { s with tlb := (s.lookup d p va).1.tlb } := by
  unfold State.lookup
  split
  · rfl
  · split <;> rfl

/-- A trace event touches the tile table alone (R386). -/
theorem State.trace_frame (s : State) (t : Thread) (k sub : Nat) (pc : Word) (q : Half) (d : Word) (e : List (Nat × Word)) :
    s.trace t k sub pc q d e = { s with tiles := (s.trace t k sub pc q d e).tiles } := by
  unfold State.trace
  dsimp only
  split <;> rfl

/-- The fields of a tile that no trace event writes. -/
theorem Tile.traceAppend_frame (tl : Tile) (r : TraceRec) :
    tl.traceAppend r = { tl with
      trace := (tl.traceAppend r).trace, trcWptr := (tl.traceAppend r).trcWptr, trcFrozen := (tl.traceAppend r).trcFrozen
      trcCause := (tl.traceAppend r).trcCause, trcPost := (tl.traceAppend r).trcPost } := by
  unfold Tile.traceAppend
  split
  · rfl
  · dsimp only; split <;> rfl

/-- A record touches the trace's own fields, with the count of dropped records (R386). -/
theorem Tile.traceRecord_frame (tl : Tile) (c : Bool) (r : TraceRec) :
    tl.traceRecord c r = { tl with
      trace := (tl.traceRecord c r).trace, trcWptr := (tl.traceRecord c r).trcWptr, trcFrozen := (tl.traceRecord c r).trcFrozen
      trcCause := (tl.traceRecord c r).trcCause, trcPost := (tl.traceRecord c r).trcPost, trcDrop := (tl.traceRecord c r).trcDrop
      trcDovf := (tl.traceRecord c r).trcDovf, trcRecent := (tl.traceRecord c r).trcRecent } := by
  unfold Tile.traceRecord
  split
  · rfl
  · split
    · rfl
    · dsimp only; rw [Tile.traceAppend_frame]

/-! ### Issue (R29) -/

@[simp] theorem State.begin_part (s : State) (t : Thread) : (s.begin_ t).part = t.part := by unfold State.begin_; split <;> rfl
@[simp] theorem State.begin_inst (s : State) (t : Thread) : (s.begin_ t).inst = t.inst := by unfold State.begin_; split <;> rfl
@[simp] theorem State.begin_ordinal (s : State) (t : Thread) : (s.begin_ t).ordinal = t.ordinal := by
  unfold State.begin_; split <;> rfl
@[simp] theorem State.begin_num (s : State) (t : Thread) : (s.begin_ t).num = t.num := by unfold State.begin_; split <;> rfl
@[simp] theorem State.begin_pc (s : State) (t : Thread) : (s.begin_ t).pc = t.pc := by unfold State.begin_; split <;> rfl
@[simp] theorem State.begin_sw (s : State) (t : Thread) : (s.begin_ t).sw = t.sw := by unfold State.begin_; split <;> rfl
@[simp] theorem State.begin_regs (s : State) (t : Thread) : (s.begin_ t).regs = t.regs := by unfold State.begin_; split <;> rfl
@[simp] theorem State.begin_preds (s : State) (t : Thread) : (s.begin_ t).preds = t.preds := by unfold State.begin_; split <;> rfl
@[simp] theorem State.begin_handles (s : State) (t : Thread) : (s.begin_ t).handles = t.handles := by
  unfold State.begin_; split <;> rfl
@[simp] theorem State.begin_state (s : State) (t : Thread) : (s.begin_ t).state = t.state := by unfold State.begin_; split <;> rfl
@[simp] theorem State.begin_region (s : State) (t : Thread) : (s.begin_ t).region = t.region := by
  unfold State.begin_; split <;> rfl
@[simp] theorem State.begin_buf (s : State) (t : Thread) : (s.begin_ t).buf = t.buf := by unfold State.begin_; split <;> rfl
@[simp] theorem State.begin_seq (s : State) (t : Thread) : (s.begin_ t).seq = t.seq := by unfold State.begin_; split <;> rfl

@[simp] theorem issuedBy_num (s : State) (t : Thread) : (issuedBy s t).num = t.num := by simp [issuedBy]
@[simp] theorem issuedBy_pc (s : State) (t : Thread) : (issuedBy s t).pc = t.pc := by simp [issuedBy]
@[simp] theorem issuedBy_sw (s : State) (t : Thread) : (issuedBy s t).sw = t.sw := by simp [issuedBy]
@[simp] theorem issuedBy_level (s : State) (t : Thread) : (issuedBy s t).level = t.level := by simp [Thread.level]
@[simp] theorem issuedBy_reg (s : State) (t : Thread) (r : Nat) : (issuedBy s t).reg r = t.reg r := by
  simp [Thread.reg, issuedBy]
@[simp] theorem issuedBy_pred (s : State) (t : Thread) (p : Nat) : (issuedBy s t).pred p = t.pred p := by
  simp [Thread.pred, issuedBy]
@[simp] theorem issuedBy_handle (s : State) (t : Thread) (h : Nat) : (issuedBy s t).handle h = t.handle h := by
  simp [Thread.handle, issuedBy]
@[simp] theorem issuedBy_state (s : State) (t : Thread) : (issuedBy s t).state = t.state := by simp [issuedBy]
@[simp] theorem issuedBy_part (s : State) (t : Thread) : (issuedBy s t).part = t.part := by simp [issuedBy]
@[simp] theorem issuedBy_region (s : State) (t : Thread) : (issuedBy s t).region = t.region := by simp [issuedBy]
@[simp] theorem issuedBy_buf (s : State) (t : Thread) : (issuedBy s t).buf = t.buf := by simp [issuedBy]

/-- What an instruction of a Ready thread of a sufficient level does: its own effect after the issue. -/
theorem issue_next {i : Instr} {least : Nat} {s : State} {k : State → Thread → State} {t : Thread}
    (ht : s.thread? s.cur = some t) (hr : t.state = .ready) (hw : wellFormed i = true) (hl : least ≤ t.level) :
    issue i least s k = .next (k (issuedIn s t) (issuedBy s t)) := by
  simp [issue, ht, hr, hw, Nat.not_lt.2 hl]

/-- ILL for an instruction that its format does not allow (R29). -/
theorem issue_ill {i : Instr} {least : Nat} {s : State} {k : State → Thread → State} {t : Thread}
    (ht : s.thread? s.cur = some t) (hr : t.state = .ready) (hw : wellFormed i = false) :
    issue i least s k = .next ((issuedIn s t).raise (issuedBy s t) i 0x01 (word (firstWord i).toNat)) := by
  simp [issue, ht, hr, hw]

/-- PRIV below the least level of an instruction (R29). -/
theorem issue_priv {i : Instr} {least : Nat} {s : State} {k : State → Thread → State} {t : Thread}
    (ht : s.thread? s.cur = some t) (hr : t.state = .ready) (hw : wellFormed i = true) (hl : t.level < least) :
    issue i least s k = .next ((issuedIn s t).raise (issuedBy s t) i 0x02 (word (firstWord i).toNat)) := by
  simp [issue, ht, hr, hw, hl]

/-- A thread that is not Ready does not issue (R84). -/
theorem issue_idle {i : Instr} {least : Nat} {s : State} {k : State → Thread → State} {t : Thread}
    (ht : s.thread? s.cur = some t) (hr : t.state ≠ .ready) : issue i least s k = .next s := by
  simp [issue, ht, hr]

/-- What the issue itself changes. -/
theorem issuedIn_frame (s : State) (t : Thread) :
    issuedIn s t = { s with
      threads := tabSet s.threads t.num (issuedBy s t), meters := (issuedIn s t).meters
      accounts := (issuedIn s t).accounts, pubBy := some (t.part, t.inst, t.ordinal) } := by
  have h := State.chargeThread_frame s (issuedBy s t) 0x00 1
  unfold issuedIn State.setThread
  rw [h]
  simp

end Sys2Proof.Machine
end

