-- ==== Sys2Proof/Laws/PerInstr.lean ====
section
/-! SUPPORT. The law of each instruction's encoding: every word of it has 32 bits, and it has two at most (R26). -/

namespace Sys2Proof.Laws.EncodingWidth

/-- R26: an instruction is a word of 32 bits, with an extension word of 32 bits after it in some forms. -/
def Statement (i : Instr) : Prop := (∀ w ∈ encodeNat i, w < 2 ^ 32) ∧ (encodeNat i).length ≤ 2

theorem of_none (i : Instr) (h : encodeNat i = []) : Statement i := by simp [Statement, h]

theorem of_one (i : Instr) (w : Nat) (h : encodeNat i = [w]) (hw : w < 2 ^ 32) : Statement i := by simp [Statement, h]; omega

theorem of_two (i : Instr) (w x : Nat) (h : encodeNat i = [w, x]) (hw : w < 2 ^ 32) (hx : x < 2 ^ 32) : Statement i := by
  simp [Statement, h]; omega

theorem add (d a b : BitVec 5) : Statement (.add d a b) := of_one _ _ rfl (by omega)
theorem sub (d a b : BitVec 5) : Statement (.sub d a b) := of_one _ _ rfl (by omega)
theorem mul (d a b : BitVec 5) : Statement (.mul d a b) := of_one _ _ rfl (by omega)
theorem mulh (d a b : BitVec 5) : Statement (.mulh d a b) := of_one _ _ rfl (by omega)
theorem div (d a b : BitVec 5) : Statement (.div d a b) := of_one _ _ rfl (by omega)
theorem rem (d a b : BitVec 5) : Statement (.rem d a b) := of_one _ _ rfl (by omega)
theorem and (d a b : BitVec 5) : Statement (.and d a b) := of_one _ _ rfl (by omega)
theorem or (d a b : BitVec 5) : Statement (.or d a b) := of_one _ _ rfl (by omega)
theorem xor (d a b : BitVec 5) : Statement (.xor d a b) := of_one _ _ rfl (by omega)
theorem andn (d a b : BitVec 5) : Statement (.andn d a b) := of_one _ _ rfl (by omega)
theorem shl (d a b : BitVec 5) : Statement (.shl d a b) := of_one _ _ rfl (by omega)
theorem shr (d a b : BitVec 5) : Statement (.shr d a b) := of_one _ _ rfl (by omega)
theorem sar (d a b : BitVec 5) : Statement (.sar d a b) := of_one _ _ rfl (by omega)
theorem min (d a b : BitVec 5) : Statement (.min d a b) := of_one _ _ rfl (by omega)
theorem max (d a b : BitVec 5) : Statement (.max d a b) := of_one _ _ rfl (by omega)
theorem minu (d a b : BitVec 5) : Statement (.minu d a b) := of_one _ _ rfl (by omega)
theorem maxu (d a b : BitVec 5) : Statement (.maxu d a b) := of_one _ _ rfl (by omega)
theorem clz (d a : BitVec 5) : Statement (.clz d a) := of_one _ _ rfl (by omega)
theorem ctz (d a : BitVec 5) : Statement (.ctz d a) := of_one _ _ rfl (by omega)
theorem popc (d a : BitVec 5) : Statement (.popc d a) := of_one _ _ rfl (by omega)
theorem sext8 (d a : BitVec 5) : Statement (.sext8 d a) := of_one _ _ rfl (by omega)
theorem sext16 (d a : BitVec 5) : Statement (.sext16 d a) := of_one _ _ rfl (by omega)
theorem sext32 (d a : BitVec 5) : Statement (.sext32 d a) := of_one _ _ rfl (by omega)
theorem zext8 (d a : BitVec 5) : Statement (.zext8 d a) := of_one _ _ rfl (by omega)
theorem zext16 (d a : BitVec 5) : Statement (.zext16 d a) := of_one _ _ rfl (by omega)
theorem zext32 (d a : BitVec 5) : Statement (.zext32 d a) := of_one _ _ rfl (by omega)
theorem addi (d a : BitVec 5) (i : BitVec 16) : Statement (.addi d a i) := of_one _ _ rfl (by omega)
theorem movi (d : BitVec 5) (i : BitVec 16) : Statement (.movi d i) := of_one _ _ rfl (by omega)
theorem movhi (d : BitVec 5) (i : BitVec 16) : Statement (.movhi d i) := of_one _ _ rfl (by omega)
theorem lea (d a b : BitVec 5) (s : BitVec 3) : Statement (.lea d a b s) := of_one _ _ rfl (by omega)
theorem cmpEq (p a b : BitVec 5) : Statement (.cmpEq p a b) := of_one _ _ rfl (by omega)
theorem cmpNe (p a b : BitVec 5) : Statement (.cmpNe p a b) := of_one _ _ rfl (by omega)
theorem cmpLt (p a b : BitVec 5) : Statement (.cmpLt p a b) := of_one _ _ rfl (by omega)
theorem cmpGe (p a b : BitVec 5) : Statement (.cmpGe p a b) := of_one _ _ rfl (by omega)
theorem cmpLtu (p a b : BitVec 5) : Statement (.cmpLtu p a b) := of_one _ _ rfl (by omega)
theorem cmpGeu (p a b : BitVec 5) : Statement (.cmpGeu p a b) := of_one _ _ rfl (by omega)
theorem bfx (d a : BitVec 5) (w p : BitVec 6) : Statement (.bfx d a w p) := of_one _ _ rfl (by omega)
theorem bfi (d a : BitVec 5) (w p : BitVec 6) : Statement (.bfi d a w p) := of_one _ _ rfl (by omega)
theorem sel (d a b : BitVec 5) (n : BitVec 1) (p : BitVec 3) : Statement (.sel d a b n p) := of_one _ _ rfl (by omega)
theorem bc (p : BitVec 3) (n : BitVec 1) (o : BitVec 22) : Statement (.bc p n o) := of_one _ _ rfl (by omega)
theorem br (o : BitVec 22) : Statement (.br o) := of_one _ _ rfl (by omega)
theorem call (o : BitVec 22) : Statement (.call o) := of_one _ _ rfl (by omega)
theorem jmp (a : BitVec 5) : Statement (.jmp a) := of_one _ _ rfl (by omega)
theorem ret : Statement .ret := of_one _ _ rfl (by omega)
theorem loop (a : BitVec 5) (i : BitVec 16) : Statement (.loop a i) := of_one _ _ rfl (by omega)
theorem thrSpawn (d a b : BitVec 5) : Statement (.thrSpawn d a b) := of_one _ _ rfl (by omega)
theorem thrExit : Statement .thrExit := of_one _ _ rfl (by omega)
theorem thrYield : Statement .thrYield := of_one _ _ rfl (by omega)
theorem bar (a : BitVec 5) : Statement (.bar a) := of_one _ _ rfl (by omega)
theorem ld8 (d a : BitVec 5) (s : BitVec 2) (o : BitVec 11) : Statement (.ld8 d a s o) := of_one _ _ rfl (by omega)
theorem ld16 (d a : BitVec 5) (s : BitVec 2) (o : BitVec 11) : Statement (.ld16 d a s o) := of_one _ _ rfl (by omega)
theorem ld32 (d a : BitVec 5) (s : BitVec 2) (o : BitVec 11) : Statement (.ld32 d a s o) := of_one _ _ rfl (by omega)
theorem ld64 (d a : BitVec 5) (s : BitVec 2) (o : BitVec 11) : Statement (.ld64 d a s o) := of_one _ _ rfl (by omega)
theorem ld8s (d a : BitVec 5) (s : BitVec 2) (o : BitVec 11) : Statement (.ld8s d a s o) := of_one _ _ rfl (by omega)
theorem ld16s (d a : BitVec 5) (s : BitVec 2) (o : BitVec 11) : Statement (.ld16s d a s o) := of_one _ _ rfl (by omega)
theorem ld32s (d a : BitVec 5) (s : BitVec 2) (o : BitVec 11) : Statement (.ld32s d a s o) := of_one _ _ rfl (by omega)
theorem st8 (d a : BitVec 5) (s : BitVec 2) (o : BitVec 11) : Statement (.st8 d a s o) := of_one _ _ rfl (by omega)
theorem st16 (d a : BitVec 5) (s : BitVec 2) (o : BitVec 11) : Statement (.st16 d a s o) := of_one _ _ rfl (by omega)
theorem st32 (d a : BitVec 5) (s : BitVec 2) (o : BitVec 11) : Statement (.st32 d a s o) := of_one _ _ rfl (by omega)
theorem st64 (d a : BitVec 5) (s : BitVec 2) (o : BitVec 11) : Statement (.st64 d a s o) := of_one _ _ rfl (by omega)
theorem ldp (d a : BitVec 5) (s : BitVec 2) (o : BitVec 13) : Statement (.ldp d a s o) := of_one _ _ rfl (by omega)
theorem stp (d a : BitVec 5) (s : BitVec 2) (o : BitVec 13) : Statement (.stp d a s o) := of_one _ _ rfl (by omega)
theorem atAdd (d a b : BitVec 5) (z s c : BitVec 2) : Statement (.atAdd d a b z s c) := of_one _ _ rfl (by omega)
theorem atAnd (d a b : BitVec 5) (z s c : BitVec 2) : Statement (.atAnd d a b z s c) := of_one _ _ rfl (by omega)
theorem atOr (d a b : BitVec 5) (z s c : BitVec 2) : Statement (.atOr d a b z s c) := of_one _ _ rfl (by omega)
theorem atXor (d a b : BitVec 5) (z s c : BitVec 2) : Statement (.atXor d a b z s c) := of_one _ _ rfl (by omega)
theorem atMin (d a b : BitVec 5) (z s c : BitVec 2) : Statement (.atMin d a b z s c) := of_one _ _ rfl (by omega)
theorem atMax (d a b : BitVec 5) (z s c : BitVec 2) : Statement (.atMax d a b z s c) := of_one _ _ rfl (by omega)
theorem atMinu (d a b : BitVec 5) (z s c : BitVec 2) : Statement (.atMinu d a b z s c) := of_one _ _ rfl (by omega)
theorem atMaxu (d a b : BitVec 5) (z s c : BitVec 2) : Statement (.atMaxu d a b z s c) := of_one _ _ rfl (by omega)
theorem atSwap (d a b : BitVec 5) (z s c : BitVec 2) : Statement (.atSwap d a b z s c) := of_one _ _ rfl (by omega)
theorem atCas (d a b : BitVec 5) (z s c : BitVec 2) : Statement (.atCas d a b z s c) := of_one _ _ rfl (by omega)
theorem atLd (d a : BitVec 5) (z s c : BitVec 2) : Statement (.atLd d a z s c) := of_one _ _ rfl (by omega)
theorem atSt (d a b : BitVec 5) (z s c : BitVec 2) : Statement (.atSt d a b z s c) := of_one _ _ rfl (by omega)
theorem phaseEnd : Statement .phaseEnd := of_one _ _ rfl (by omega)
theorem phaseSync : Statement .phaseSync := of_one _ _ rfl (by omega)
theorem pub (a b : BitVec 5) : Statement (.pub a b) := of_one _ _ rfl (by omega)
theorem fenceE : Statement .fenceE := of_one _ _ rfl (by omega)
theorem pf (a : BitVec 5) : Statement (.pf a) := of_one _ _ rfl (by omega)
theorem spill (d : BitVec 5) (n : BitVec 6) : Statement (.spill d n) := of_one _ _ rfl (by omega)
theorem fill (d : BitVec 5) (n : BitVec 6) : Statement (.fill d n) := of_one _ _ rfl (by omega)
theorem waitEq (d a : BitVec 5) (s z : BitVec 2) (o : BitVec 11) : Statement (.waitEq d a s z o) := of_one _ _ rfl (by omega)
theorem waitNe (d a : BitVec 5) (s z : BitVec 2) (o : BitVec 11) : Statement (.waitNe d a s z o) := of_one _ _ rfl (by omega)
theorem ringDef (h a : BitVec 5) : Statement (.ringDef h a) := of_one _ _ rfl (by omega)
theorem ringWait (h a : BitVec 5) : Statement (.ringWait h a) := of_one _ _ rfl (by omega)
theorem ringRoom (h a : BitVec 5) : Statement (.ringRoom h a) := of_one _ _ rfl (by omega)
theorem ringAdv (h a : BitVec 5) : Statement (.ringAdv h a) := of_one _ _ rfl (by omega)
theorem ringPost (h a : BitVec 5) : Statement (.ringPost h a) := of_one _ _ rfl (by omega)
theorem ringSlot (d h b : BitVec 5) : Statement (.ringSlot d h b) := of_one _ _ rfl (by omega)
theorem ringStat (d h : BitVec 5) : Statement (.ringStat d h) := of_one _ _ rfl (by omega)
theorem mxCfg (a : BitVec 5) (x : Half) : Statement (.mxCfg a x) := of_two _ _ _ rfl (by omega) (by omega)
theorem mxLdb (a b : BitVec 5) (m : BitVec 1) : Statement (.mxLdb a b m) := of_one _ _ rfl (by omega)
theorem mxLdbGroups (a b : BitVec 5) (m : BitVec 1) (x : Half) : Statement (.mxLdbGroups a b m x) := of_two _ _ _ rfl (by omega) (by omega)
theorem mxRunRing (h : BitVec 4) (b : BitVec 5) (c : BitVec 1) (p : BitVec 2) : Statement (.mxRunRing h b c p) := of_one _ _ rfl (by omega)
theorem mxRunAstore (a b : BitVec 5) (c : BitVec 1) (p : BitVec 2) : Statement (.mxRunAstore a b c p) := of_one _ _ rfl (by omega)
theorem mxRunStride (a b : BitVec 5) (c : BitVec 1) (p : BitVec 2) (x : Half) : Statement (.mxRunStride a b c p x) := of_two _ _ _ rfl (by omega) (by omega)
theorem mxClr (b : BitVec 5) : Statement (.mxClr b) := of_one _ _ rfl (by omega)
theorem mxOutRing (h : BitVec 4) (b : BitVec 5) (c : BitVec 1) : Statement (.mxOutRing h b c) := of_one _ _ rfl (by omega)
theorem mxOutAstore (a b : BitVec 5) (c : BitVec 1) : Statement (.mxOutAstore a b c) := of_one _ _ rfl (by omega)
theorem mxOutRingExt (h : BitVec 4) (b : BitVec 5) (c : BitVec 1) (x : Half) : Statement (.mxOutRingExt h b c x) := of_two _ _ _ rfl (by omega) (by omega)
theorem mxOutAstoreExt (a b : BitVec 5) (c : BitVec 1) (x : Half) : Statement (.mxOutAstoreExt a b c x) := of_two _ _ _ rfl (by omega) (by omega)
theorem mxWait : Statement .mxWait := of_one _ _ rfl (by omega)
theorem mxCommandPerform (tile thread : Nat) : Statement (.mxCommandPerform tile thread) := of_none _ rfl
theorem spCfg (a : BitVec 5) (x : Half) : Statement (.spCfg a x) := of_two _ _ _ rfl (by omega) (by omega)
theorem spShape (a b : BitVec 5) (y : BitVec 6) (x : Half) : Statement (.spShape a b y x) := of_two _ _ _ rfl (by omega) (by omega)
theorem spLdAstore (a b : BitVec 5) (k : BitVec 4) : Statement (.spLdAstore a b k) := of_one _ _ rfl (by omega)
theorem spLdRing (h : BitVec 4) (b : BitVec 5) (k : BitVec 4) : Statement (.spLdRing h b k) := of_one _ _ rfl (by omega)
theorem spLdRecord (a b : BitVec 5) (k : BitVec 4) : Statement (.spLdRecord a b k) := of_two _ _ _ rfl (by omega) (by omega)
theorem spStAstore (a b : BitVec 5) (k : BitVec 4) : Statement (.spStAstore a b k) := of_one _ _ rfl (by omega)
theorem spStRing (h : BitVec 4) (b : BitVec 5) (k : BitVec 4) : Statement (.spStRing h b k) := of_one _ _ rfl (by omega)
theorem spStExt (r : BitVec 1) (h : BitVec 4) (a b : BitVec 5) (k : BitVec 4) (x : Half) : Statement (.spStExt r h a b k x) := of_two _ _ _ rfl (by omega) (by omega)
theorem spStRecord (a b : BitVec 5) (k : BitVec 4) (x : Half) : Statement (.spStRecord a b k x) := of_two _ _ _ rfl (by omega) (by omega)
theorem spUp (a b : BitVec 5) (y : BitVec 6) : Statement (.spUp a b y) := of_one _ _ rfl (by omega)
theorem spUpNosave (a b : BitVec 5) (y : BitVec 6) (x : Half) : Statement (.spUpNosave a b y x) := of_two _ _ _ rfl (by omega) (by omega)
theorem spDown (a b : BitVec 5) (y : BitVec 6) : Statement (.spDown a b y) := of_one _ _ rfl (by omega)
theorem spDownAcc (a b : BitVec 5) (y : BitVec 6) (x : Half) : Statement (.spDownAcc a b y x) := of_two _ _ _ rfl (by omega) (by omega)
theorem spNorm (k : BitVec 4) : Statement (.spNorm k) := of_one _ _ rfl (by omega)
theorem spNormSet (b : BitVec 5) (k : BitVec 4) : Statement (.spNormSet b k) := of_one _ _ rfl (by omega)
theorem spWait : Statement .spWait := of_one _ _ rfl (by omega)
theorem skCommandPerform (tile thread : Nat) : Statement (.skCommandPerform tile thread) := of_none _ rfl
theorem cp (a b : BitVec 5) (c : BitVec 1) (e : BitVec 2) : Statement (.cp a b c e) := of_one _ _ rfl (by omega)
theorem cpOffset (a b : BitVec 5) (c : BitVec 1) (e : BitVec 2) (x : Half) : Statement (.cpOffset a b c e x) := of_two _ _ _ rfl (by omega) (by omega)
theorem cpExpect (a b : BitVec 5) (e : BitVec 2) (x : Half) : Statement (.cpExpect a b e x) := of_two _ _ _ rfl (by omega) (by omega)
theorem copyPerform (tile thread : Nat) : Statement (.copyPerform tile thread) := of_none _ rfl
theorem copyShort (thread e : Nat) : Statement (.copyShort thread e) := of_none _ rfl
theorem msSub (h : BitVec 4) (a : BitVec 5) (x : Half) : Statement (.msSub h a x) := of_two _ _ _ rfl (by omega) (by omega)
theorem msPull (h : BitVec 4) (a b : BitVec 5) : Statement (.msPull h a b) := of_one _ _ rfl (by omega)
theorem msPullDone (h : BitVec 4) (a b : BitVec 5) (x : Half) : Statement (.msPullDone h a b x) := of_two _ _ _ rfl (by omega) (by omega)
theorem msStop (h : BitVec 4) : Statement (.msStop h) := of_one _ _ rfl (by omega)
theorem msePushSlot (sub : Nat) : Statement (.msePushSlot sub) := of_none _ rfl
theorem msePullSlot (sub : Nat) : Statement (.msePullSlot sub) := of_none _ rfl
theorem qClaim (d a : BitVec 5) : Statement (.qClaim d a) := of_one _ _ rfl (by omega)
theorem qPub (a b : BitVec 5) : Statement (.qPub a b) := of_one _ _ rfl (by omega)
theorem qWait (a : BitVec 5) : Statement (.qWait a) := of_one _ _ rfl (by omega)
theorem qNote (a : BitVec 5) : Statement (.qNote a) := of_one _ _ rfl (by omega)
theorem grLaunch (d a b : BitVec 5) : Statement (.grLaunch d a b) := of_one _ _ rfl (by omega)
theorem fireBegin : Statement .fireBegin := of_one _ _ rfl (by omega)
theorem fireEnd : Statement .fireEnd := of_one _ _ rfl (by omega)
theorem modeReq (a : BitVec 5) : Statement (.modeReq a) := of_one _ _ rfl (by omega)
theorem markInj (a b : BitVec 5) : Statement (.markInj a b) := of_one _ _ rfl (by omega)
theorem markWait (a : BitVec 5) : Statement (.markWait a) := of_one _ _ rfl (by omega)
theorem pageReq (a : BitVec 5) : Statement (.pageReq a) := of_one _ _ rfl (by omega)
theorem pageDrop (a : BitVec 5) : Statement (.pageDrop a) := of_one _ _ rfl (by omega)
theorem rmonRd (d a : BitVec 5) : Statement (.rmonRd d a) := of_one _ _ rfl (by omega)
theorem enRd (d a : BitVec 5) : Statement (.enRd d a) := of_one _ _ rfl (by omega)
theorem enSub (d a b : BitVec 5) : Statement (.enSub d a b) := of_one _ _ rfl (by omega)
theorem enSet (a b : BitVec 5) : Statement (.enSet a b) := of_one _ _ rfl (by omega)
theorem trap (c : BitVec 6) : Statement (.trap c) := of_one _ _ rfl (by omega)
theorem tret : Statement .tret := of_one _ _ rfl (by omega)
theorem csrRd (d : BitVec 5) (r : BitVec 11) : Statement (.csrRd d r) := of_one _ _ rfl (by omega)
theorem csrWr (a : BitVec 5) (r : BitVec 11) : Statement (.csrWr a r) := of_one _ _ rfl (by omega)
theorem idle : Statement .idle := of_one _ _ rfl (by omega)
theorem timeRd (d : BitVec 5) : Statement (.timeRd d) := of_one _ _ rfl (by omega)
theorem dbgBrk (c : BitVec 6) : Statement (.dbgBrk c) := of_one _ _ rfl (by omega)
theorem trcMark (a : BitVec 5) (x : BitVec 6) : Statement (.trcMark a x) := of_one _ _ rfl (by omega)
theorem trcFrz : Statement .trcFrz := of_one _ _ rfl (by omega)
theorem ckptReq : Statement .ckptReq := of_one _ _ rfl (by omega)
theorem iadd (a b : BitVec 9) (s : BitVec 2) (n : BitVec 1) (v : BitVec 3) : Statement (.iadd a b s n v) := of_one _ _ rfl (by omega)
theorem isub (a b : BitVec 9) (s : BitVec 2) (n : BitVec 1) (v : BitVec 3) : Statement (.isub a b s n v) := of_one _ _ rfl (by omega)
theorem imul (a b : BitVec 9) (s : BitVec 2) (n : BitVec 1) (v : BitVec 3) : Statement (.imul a b s n v) := of_one _ _ rfl (by omega)
theorem imulh (a b : BitVec 9) (s : BitVec 2) (n : BitVec 1) : Statement (.imulh a b s n) := of_one _ _ rfl (by omega)
theorem iand (a b : BitVec 9) (s : BitVec 2) (n : BitVec 1) : Statement (.iand a b s n) := of_one _ _ rfl (by omega)
theorem ior (a b : BitVec 9) (s : BitVec 2) (n : BitVec 1) : Statement (.ior a b s n) := of_one _ _ rfl (by omega)
theorem ixor (a b : BitVec 9) (s : BitVec 2) (n : BitVec 1) : Statement (.ixor a b s n) := of_one _ _ rfl (by omega)
theorem ishl (a b : BitVec 9) (s : BitVec 2) (n : BitVec 1) : Statement (.ishl a b s n) := of_one _ _ rfl (by omega)
theorem ishr (a b : BitVec 9) (s : BitVec 2) (n : BitVec 1) : Statement (.ishr a b s n) := of_one _ _ rfl (by omega)
theorem isar (a b : BitVec 9) (s : BitVec 2) (n : BitVec 1) : Statement (.isar a b s n) := of_one _ _ rfl (by omega)
theorem imin (a b : BitVec 9) (s : BitVec 2) (n : BitVec 1) : Statement (.imin a b s n) := of_one _ _ rfl (by omega)
theorem imax (a b : BitVec 9) (s : BitVec 2) (n : BitVec 1) : Statement (.imax a b s n) := of_one _ _ rfl (by omega)
theorem iminu (a b : BitVec 9) (s : BitVec 2) (n : BitVec 1) : Statement (.iminu a b s n) := of_one _ _ rfl (by omega)
theorem imaxu (a b : BitVec 9) (s : BitVec 2) (n : BitVec 1) : Statement (.imaxu a b s n) := of_one _ _ rfl (by omega)
theorem iabs (a b : BitVec 9) (s : BitVec 2) (n : BitVec 1) (v : BitVec 3) : Statement (.iabs a b s n v) := of_one _ _ rfl (by omega)
theorem icmp (a b : BitVec 9) (s : BitVec 2) (n : BitVec 1) (v : BitVec 3) : Statement (.icmp a b s n v) := of_one _ _ rfl (by omega)
theorem fadd (a b : BitVec 9) (s : BitVec 2) (n : BitVec 1) (v : BitVec 3) : Statement (.fadd a b s n v) := of_one _ _ rfl (by omega)
theorem fsub (a b : BitVec 9) (s : BitVec 2) (n : BitVec 1) (v : BitVec 3) : Statement (.fsub a b s n v) := of_one _ _ rfl (by omega)
theorem fmul (a b : BitVec 9) (s : BitVec 2) (n : BitVec 1) (v : BitVec 3) : Statement (.fmul a b s n v) := of_one _ _ rfl (by omega)
theorem ffma (a b : BitVec 9) (s : BitVec 2) (n : BitVec 1) (v : BitVec 3) : Statement (.ffma a b s n v) := of_one _ _ rfl (by omega)
theorem fmin (a b : BitVec 9) (s : BitVec 2) (n : BitVec 1) : Statement (.fmin a b s n) := of_one _ _ rfl (by omega)
theorem fmax (a b : BitVec 9) (s : BitVec 2) (n : BitVec 1) : Statement (.fmax a b s n) := of_one _ _ rfl (by omega)
theorem fabs (a b : BitVec 9) (s : BitVec 2) (n : BitVec 1) : Statement (.fabs a b s n) := of_one _ _ rfl (by omega)
theorem fneg (a b : BitVec 9) (s : BitVec 2) (n : BitVec 1) : Statement (.fneg a b s n) := of_one _ _ rfl (by omega)
theorem fcmp (a b : BitVec 9) (s : BitVec 2) (n : BitVec 1) (v : BitVec 3) : Statement (.fcmp a b s n v) := of_one _ _ rfl (by omega)
theorem rndi (a b : BitVec 9) (s : BitVec 2) (n : BitVec 1) (v : BitVec 3) : Statement (.rndi a b s n v) := of_one _ _ rfl (by omega)
theorem fxp (a b : BitVec 9) (s : BitVec 2) (n : BitVec 1) : Statement (.fxp a b s n) := of_one _ _ rfl (by omega)
theorem expins (a b : BitVec 9) (s : BitVec 2) (n : BitVec 1) : Statement (.expins a b s n) := of_one _ _ rfl (by omega)
theorem expext (a b : BitVec 9) (s : BitVec 2) (n : BitVec 1) : Statement (.expext a b s n) := of_one _ _ rfl (by omega)
theorem frcp (a b : BitVec 9) (s : BitVec 2) (n : BitVec 1) : Statement (.frcp a b s n) := of_one _ _ rfl (by omega)
theorem frsq (a b : BitVec 9) (s : BitVec 2) (n : BitVec 1) : Statement (.frsq a b s n) := of_one _ _ rfl (by omega)
theorem badd2 (a b : BitVec 9) (s : BitVec 2) (n : BitVec 1) (v : BitVec 3) : Statement (.badd2 a b s n v) := of_one _ _ rfl (by omega)
theorem bsub2 (a b : BitVec 9) (s : BitVec 2) (n : BitVec 1) (v : BitVec 3) : Statement (.bsub2 a b s n v) := of_one _ _ rfl (by omega)
theorem bmul2 (a b : BitVec 9) (s : BitVec 2) (n : BitVec 1) (v : BitVec 3) : Statement (.bmul2 a b s n v) := of_one _ _ rfl (by omega)
theorem bfma2 (a b : BitVec 9) (s : BitVec 2) (n : BitVec 1) (v : BitVec 3) : Statement (.bfma2 a b s n v) := of_one _ _ rfl (by omega)
theorem bmin2 (a b : BitVec 9) (s : BitVec 2) (n : BitVec 1) : Statement (.bmin2 a b s n) := of_one _ _ rfl (by omega)
theorem bmax2 (a b : BitVec 9) (s : BitVec 2) (n : BitVec 1) : Statement (.bmax2 a b s n) := of_one _ _ rfl (by omega)
theorem i2f (a b : BitVec 9) (s : BitVec 2) (n : BitVec 1) (v : BitVec 3) : Statement (.i2f a b s n v) := of_one _ _ rfl (by omega)
theorem f2i (a b : BitVec 9) (s : BitVec 2) (n : BitVec 1) (v : BitVec 3) : Statement (.f2i a b s n v) := of_one _ _ rfl (by omega)
theorem f2b (a b : BitVec 9) (s : BitVec 2) (n : BitVec 1) (v : BitVec 3) : Statement (.f2b a b s n v) := of_one _ _ rfl (by omega)
theorem b2f (a b : BitVec 9) (s : BitVec 2) (n : BitVec 1) : Statement (.b2f a b s n) := of_one _ _ rfl (by omega)
theorem b2fh (a b : BitVec 9) (s : BitVec 2) (n : BitVec 1) : Statement (.b2fh a b s n) := of_one _ _ rfl (by omega)
theorem esel (a b : BitVec 9) (s : BitVec 2) (n : BitVec 1) : Statement (.esel a b s n) := of_one _ _ rfl (by omega)
theorem steer (a b : BitVec 9) (s : BitVec 2) (n : BitVec 1) : Statement (.steer a b s n) := of_one _ _ rfl (by omega)
theorem merge (a b : BitVec 9) (s : BitVec 2) (n : BitVec 1) : Statement (.merge a b s n) := of_one _ _ rfl (by omega)
theorem mergeSecondEmit (page slot : Nat) : Statement (.mergeSecondEmit page slot) := of_none _ rfl
theorem gate (a b : BitVec 9) (s : BitVec 2) (n : BitVec 1) : Statement (.gate a b s n) := of_one _ _ rfl (by omega)
theorem dup (a b : BitVec 9) (s : BitVec 2) (n : BitVec 1) : Statement (.dup a b s n) := of_one _ _ rfl (by omega)
theorem dupCopyEmit (page slot : Nat) : Statement (.dupCopyEmit page slot) := of_none _ rfl
theorem acc (a b : BitVec 9) (s : BitVec 2) (n : BitVec 1) (v : BitVec 3) : Statement (.acc a b s n v) := of_one _ _ rfl (by omega)
theorem tagset (a b : BitVec 9) (s : BitVec 2) (n : BitVec 1) : Statement (.tagset a b s n) := of_one _ _ rfl (by omega)
theorem pass (a b : BitVec 9) (s : BitVec 2) (n : BitVec 1) : Statement (.pass a b s n) := of_one _ _ rfl (by omega)
theorem ends (a b : BitVec 9) (s : BitVec 2) (n : BitVec 1) : Statement (.ends a b s n) := of_one _ _ rfl (by omega)
theorem cnt (a b : BitVec 9) (s : BitVec 2) (n : BitVec 1) : Statement (.cnt a b s n) := of_one _ _ rfl (by omega)
theorem agl (i : BitVec 4) : Statement (.agl i) := of_one _ _ rfl (by omega)
theorem ags (i : BitVec 4) : Statement (.ags i) := of_one _ _ rfl (by omega)
theorem agc (i : BitVec 4) : Statement (.agc i) := of_one _ _ rfl (by omega)
theorem agAccess (page slot : Nat) : Statement (.agAccess page slot) := of_none _ rfl
theorem rin (a b : BitVec 9) (i : BitVec 4) : Statement (.rin a b i) := of_one _ _ rfl (by omega)
theorem rout (i : BitVec 4) : Statement (.rout i) := of_one _ _ rfl (by omega)
theorem rep (a b : BitVec 9) (i : BitVec 4) : Statement (.rep a b i) := of_one _ _ rfl (by omega)
theorem outputPortWrite (page port : Nat) : Statement (.outputPortWrite page port) := of_none _ rfl
theorem portHeldTokenWrite (page port : Nat) : Statement (.portHeldTokenWrite page port) := of_none _ rfl
theorem tokenArrival (page k : Nat) : Statement (.tokenArrival page k) := of_none _ rfl
theorem queueTurnRelease (page slot q : Nat) : Statement (.queueTurnRelease page slot q) := of_none _ rfl
theorem markerAlign (page pos : Nat) : Statement (.markerAlign page pos) := of_none _ rfl
theorem rsuFire (page row : Nat) : Statement (.rsuFire page row) := of_none _ rfl
theorem rsuScanEmit (page row : Nat) : Statement (.rsuScanEmit page row) := of_none _ rfl
theorem pagePlace (part region : Nat) : Statement (.pagePlace part region) := of_none _ rfl
theorem pageEvict (part : Nat) : Statement (.pageEvict part) := of_none _ rfl
theorem backEdgeMarkerTake (part inst actor h : Nat) : Statement (.backEdgeMarkerTake part inst actor h) := of_none _ rfl
theorem forcedCut (part inst : Nat) : Statement (.forcedCut part inst) := of_none _ rfl
theorem queueLaunch (part q : Nat) : Statement (.queueLaunch part q) := of_none _ rfl
theorem instanceEnd (part inst : Nat) : Statement (.instanceEnd part inst) := of_none _ rfl
theorem schedulerPreempt (part inst : Nat) : Statement (.schedulerPreempt part inst) := of_none _ rfl
theorem schedulerResume (part inst : Nat) : Statement (.schedulerResume part inst) := of_none _ rfl
theorem wake (thread : Nat) : Statement (.wake thread) := of_none _ rfl
theorem idleTimeout (thread : Nat) : Statement (.idleTimeout thread) := of_none _ rfl
theorem asyncTrapDelivery (thread : Nat) : Statement (.asyncTrapDelivery thread) := of_none _ rfl
theorem breakpointMatch (thread : Nat) : Statement (.breakpointMatch thread) := of_none _ rfl
theorem recordBacklogWrite (part : Nat) : Statement (.recordBacklogWrite part) := of_none _ rfl
theorem xdone (part id : Nat) : Statement (.xdone part id) := of_none _ rfl
theorem instctlPreempt (part inst : Nat) : Statement (.instctlPreempt part inst) := of_none _ rfl
theorem instctlResume (part inst : Nat) : Statement (.instctlResume part inst) := of_none _ rfl
theorem instctlEnd (part inst : Nat) : Statement (.instctlEnd part inst) := of_none _ rfl
theorem tlbInvalidate (part : Nat) (v : Word) : Statement (.tlbInvalidate part v) := of_none _ rfl
theorem qSync (part q : Nat) : Statement (.qSync part q) := of_none _ rfl
theorem qSyncHalt (part q : Nat) : Statement (.qSyncHalt part q) := of_none _ rfl
theorem ctxdataRead (thread : Nat) : Statement (.ctxdataRead thread) := of_none _ rfl
theorem ctxdataWrite (thread : Nat) (v : Word) : Statement (.ctxdataWrite thread v) := of_none _ rfl
theorem trcdataRead (tile : Nat) : Statement (.trcdataRead tile) := of_none _ rfl
theorem traceUnfreeze (tile : Nat) : Statement (.traceUnfreeze tile) := of_none _ rfl
theorem traceFreeze (tile : Nat) : Statement (.traceFreeze tile) := of_none _ rfl
theorem sample (tile : Nat) : Statement (.sample tile) := of_none _ rfl
theorem timeStep (ns : Nat) : Statement (.timeStep ns) := of_none _ rfl
theorem timeSlew (v : Half) : Statement (.timeSlew v) := of_none _ rfl
theorem registerWrite (thread : Nat) (r : BitVec 11) (v : Word) : Statement (.registerWrite thread r v) := of_none _ rfl
theorem queueNotify (fn q : Nat) : Statement (.queueNotify fn q) := of_none _ rfl
theorem queueNotifyIndexed (fn : Nat) (v : Word) : Statement (.queueNotifyIndexed fn v) := of_none _ rfl
theorem hostPublication (part q : Nat) : Statement (.hostPublication part q) := of_none _ rfl
theorem ingestArrival (part q k : Nat) : Statement (.ingestArrival part q k) := of_none _ rfl
theorem ingestDeadline (part q : Nat) : Statement (.ingestDeadline part q) := of_none _ rfl
theorem hostApertureWrite (fn va : Nat) (bytes : List Byte) : Statement (.hostApertureWrite fn va bytes) := of_none _ rfl
theorem hostApertureRead (fn va n : Nat) : Statement (.hostApertureRead fn va n) := of_none _ rfl
theorem arcArrival (link ring : Nat) (bytes : List Byte) : Statement (.arcArrival link ring bytes) := of_none _ rfl
theorem arcAdvanceReturn (link ring n : Nat) : Statement (.arcAdvanceReturn link ring n) := of_none _ rfl
theorem linkBeatError (link : Nat) : Statement (.linkBeatError link) := of_none _ rfl
theorem linkDown (link : Nat) : Statement (.linkDown link) := of_none _ rfl
theorem linkReturn (link : Nat) : Statement (.linkReturn link) := of_none _ rfl
theorem attachErr (m : Nat) : Statement (.attachErr m) := of_none _ rfl
theorem thermal (island : Nat) : Statement (.thermal island) := of_none _ rfl
theorem meterFlush (meter : Nat) : Statement (.meterFlush meter) := of_none _ rfl
theorem intervalEnd : Statement .intervalEnd := of_none _ rfl
theorem calibrationTrim : Statement .calibrationTrim := of_none _ rfl
theorem checkpointTimer (part : Nat) : Statement (.checkpointTimer part) := of_none _ rfl
theorem checkpointComplete (part : Nat) : Statement (.checkpointComplete part) := of_none _ rfl
theorem checkpointImageWrite (part : Nat) : Statement (.checkpointImageWrite part) := of_none _ rfl
theorem create (side : Bool) (part : Nat) (arg0 arg1 : Word) : Statement (.create side part arg0 arg1) := of_none _ rfl
theorem destroy (side : Bool) (part : Nat) (arg0 arg1 : Word) : Statement (.destroy side part arg0 arg1) := of_none _ rfl
theorem resize (side : Bool) (part : Nat) (arg0 arg1 : Word) : Statement (.resize side part arg0 arg1) := of_none _ rfl
theorem assign (side : Bool) (part : Nat) (arg0 arg1 : Word) : Statement (.assign side part arg0 arg1) := of_none _ rfl
theorem release (side : Bool) (part : Nat) (arg0 arg1 : Word) : Statement (.release side part arg0 arg1) := of_none _ rfl
theorem partitionReset (side : Bool) (part : Nat) (arg0 arg1 : Word) : Statement (.partitionReset side part arg0 arg1) := of_none _ rfl
theorem restore (side : Bool) (part : Nat) (arg0 arg1 : Word) : Statement (.restore side part arg0 arg1) := of_none _ rfl
theorem setpool (side : Bool) (part : Nat) (arg0 arg1 : Word) : Statement (.setpool side part arg0 arg1) := of_none _ rfl
theorem arcs (side : Bool) (part : Nat) (arg0 arg1 : Word) : Statement (.arcs side part arg0 arg1) := of_none _ rfl
theorem retire (side : Bool) (part : Nat) (arg0 arg1 : Word) : Statement (.retire side part arg0 arg1) := of_none _ rfl
theorem enset (side : Bool) (part : Nat) (arg0 arg1 : Word) : Statement (.enset side part arg0 arg1) := of_none _ rfl
theorem status : Statement .status := of_none _ rfl
theorem logrd (i : Nat) : Statement (.logrd i) := of_none _ rfl
theorem enrd (acct item : Nat) : Statement (.enrd acct item) := of_none _ rfl
theorem wearrd (i : Nat) : Statement (.wearrd i) := of_none _ rfl
theorem attest (nonce : Nat) : Statement (.attest nonce) := of_none _ rfl
theorem pctl (ctr sig : Nat) (cmd arg0 arg1 : Word) : Statement (.pctl ctr sig cmd arg0 arg1) := of_none _ rfl
theorem dump (ctr sig part : Nat) : Statement (.dump ctr sig part) := of_none _ rfl
theorem kekset (ctr sig key : Nat) : Statement (.kekset ctr sig key) := of_none _ rfl
theorem reset (ctr sig : Nat) : Statement (.reset ctr sig) := of_none _ rfl
theorem fwload (ctr sig version index : Nat) (image : FwSealed) : Statement (.fwload ctr sig version index image) := of_none _ rfl
theorem unlockNonce : Statement .unlockNonce := of_none _ rfl
theorem unlockToken (token : Nat) : Statement (.unlockToken token) := of_none _ rfl
theorem provision (token key : Nat) : Statement (.provision token key) := of_none _ rfl
theorem standbyBoot : Statement .standbyBoot := of_none _ rfl
theorem mainPowerGood (good0 good1 : List Nat) (hbmOk : Bool) : Statement (.mainPowerGood good0 good1 hbmOk) := of_none _ rfl
theorem calibrationDone : Statement .calibrationDone := of_none _ rfl
theorem meminitDone : Statement .meminitDone := of_none _ rfl
theorem attachTrainingDone (ok : Bool) : Statement (.attachTrainingDone ok) := of_none _ rfl
theorem ready : Statement .ready := of_none _ rfl
theorem arcSlotSend (link ring : Nat) : Statement (.arcSlotSend link ring) := of_none _ rfl
theorem powerLoss : Statement .powerLoss := of_none _ rfl

end Sys2Proof.Laws.EncodingWidth
end

