-- ==== Sys2Proof/Tests/Slice0.lean ====
section
/-! SUPPORT. Tests: the words of the spec's encoding tables, ill-formed terms for each check of WellFormed, and concrete states and
operands that meet the hypotheses of the statements. -/

namespace Sys2Proof.Tests

open Sys2Proof Sys2Proof.Machine Sys2Proof.Claims

set_option Elab.async false

/-! ### Decoding: words of the encoding tables of spec/02 to spec/14 -/

theorem test_words_encoding : ∀ e ∈ ([
    (0x00642800, 0, .add 3 4 5), (0x0463FFF8, 0, .addi 3 3 0xFFF8), (0x60E26808, 0, .ld64 7 2 1 8), (0x417FFFFD, 0, .bc 2 1 0x3FFFFD),
    (0xF8000005, 0, .trap 5)] : List (Half × Half × Instr)),
    decodeControl e.1 e.2.1 = .ok e.2.2 := by decide +kernel

theorem test_words_scalar : ∀ e ∈ ([
    (0x012A5803, 0, .mulh 9 10 11), (0x00470020, 0, .clz 2 7), (0x08E0FFFE, 0, .movi 7 0xFFFE), (0x0CE01234, 0, .movhi 7 0x1234),
    (0x10821803, 0, .lea 4 2 3 3), (0x14453004, 0, .cmpLtu 2 5 6), (0x190904CC, 0, .bfx 8 9 19 12), (0x1D0904CC, 0, .bfi 8 9 19 12),
    (0x2022180C, 0, .sel 1 2 3 1 4)] : List (Half × Half × Instr)),
    decodeControl e.1 e.2.1 = .ok e.2.2 := by decide +kernel

theorem test_words_flow_and_threads : ∀ e ∈ ([
    (0x44000010, 0, .call 16), (0x48050000, 0, .jmp 5), (0x48000002, 0, .ret), (0x4C04FFFD, 0, .loop 4 0xFFFD),
    (0x50642800, 0, .thrSpawn 3 4 5), (0x50000001, 0, .thrExit), (0x50000002, 0, .thrYield), (0x50060003, 0, .bar 6)] : List (Half × Half × Instr)),
    decodeControl e.1 e.2.1 = .ok e.2.2 := by decide +kernel

theorem test_words_memory : ∀ e ∈ ([
    (0x648947FE, 0, .st32 4 9 0 0x7FE), (0x60A2D020, 0, .ld32s 5 2 2 32), (0x69430002, 0, .ldp 10 3 0 2),
    (0x6943BFFF, 0, .stp 10 3 1 0x1FFF), (0x6CC84CA4, 0, .atCas 6 8 9 1 0 2), (0x6C053808, 0, .atAdd 0 5 7 0 1 0)] : List (Half × Half × Instr)),
    decodeControl e.1 e.2.1 = .ok e.2.2 := by decide +kernel

theorem test_words_phases : ∀ e ∈ ([
    (0x70000000, 0, .phaseEnd), (0x70000001, 0, .phaseSync), (0x70042802, 0, .pub 4 5), (0x70000003, 0, .fenceE), (0x70060004, 0, .pf 6),
    (0x720000E5, 0, .spill 16 7), (0x720000E6, 0, .fill 16 7)] : List (Half × Half × Instr)),
    decodeControl e.1 e.2.1 = .ok e.2.2 := by decide +kernel

theorem test_words_rings : ∀ e ∈ ([
    (0x80450000, 0, .ringDef 2 5), (0x80040001, 0, .ringWait 0 4), (0x80240002, 0, .ringRoom 1 4), (0x80040003, 0, .ringAdv 0 4),
    (0x80240004, 0, .ringPost 1 4), (0x80E01805, 0, .ringSlot 7 0 3), (0x81020006, 0, .ringStat 8 2)] : List (Half × Half × Instr)),
    decodeControl e.1 e.2.1 = .ok e.2.2 := by decide +kernel

theorem test_words_matrix : ∀ e ∈ ([
    (0xA2002000, 3, .mxCfg 4 3), (0xA0102981, 0, .mxLdb 5 6 1), (0xA2102980, 6, .mxLdbGroups 5 6 0 6), (0xA02201C1, 0, .mxRunRing 2 7 0 0),
    (0xA02041CC, 0, .mxRunAstore 8 7 1 2), (0xA03001C0, 0, .mxClr 7), (0xA24301C1, 2, .mxOutRingExt 3 7 0 2), (0xA0500000, 0, .mxWait)] : List (Half × Half × Instr)),
    decodeControl e.1 e.2.1 = .ok e.2.2 := by decide +kernel

theorem test_words_sums : ∀ e ∈ ([
    (0xC2002000, 5, .spCfg 4 5), (0xC0204243, 0, .spLdAstore 8 9 3), (0xC0220253, 0, .spLdRing 2 9 3),
    (0xC2304243, 1, .spStExt 0 0 8 9 3 1), (0xC04052C5, 0, .spUp 10 11 5), (0xC25052C5, 1, .spDownAcc 10 11 5 1),
    (0xC0600003, 0, .spNorm 3), (0xC0600313, 0, .spNormSet 12 3), (0xC0700000, 0, .spWait)] : List (Half × Half × Instr)),
    decodeControl e.1 e.2.1 = .ok e.2.2 := by decide +kernel

theorem test_words_movement : ∀ e ∈ ([
    (0xE0002140, 0, .cp 4 5 0 0), (0xE0002006, 0, .cp 4 0 1 2), (0xE2002140, 0x20001, .cpOffset 4 5 0 0 0x00020001),
    (0xE21031C1, 0x1f4, .cpExpect 6 7 1 0x1F4), (0xE6022000, 0, .msSub 2 4 0), (0xE4132140, 0, .msPull 3 4 5),
    (0xE6132140, 0x200, .msPullDone 3 4 5 0x200), (0xE4220000, 0, .msStop 2)] : List (Half × Half × Instr)),
    decodeControl e.1 e.2.1 = .ok e.2.2 := by decide +kernel

theorem test_words_queues_and_energy : ∀ e ∈ ([
    (0xE9040000, 0, .qClaim 8 4), (0xE8042801, 0, .qPub 4 5), (0xE8040002, 0, .qWait 4), (0xE8040003, 0, .qNote 4),
    (0xF4A60000, 0, .enRd 5 6), (0xF4A63801, 0, .enSub 5 6 7), (0xF4063802, 0, .enSet 6 7)] : List (Half × Half × Instr)),
    decodeControl e.1 e.2.1 = .ok e.2.2 := by decide +kernel

theorem test_words_graphs : ∀ e ∈ ([
    (0xF0642800, 0, .grLaunch 3 4 5), (0xF0000001, 0, .fireBegin), (0xF0000002, 0, .fireEnd), (0xF0040003, 0, .modeReq 4),
    (0xF0042804, 0, .markInj 4 5), (0xF0060005, 0, .markWait 6), (0xF0070006, 0, .pageReq 7), (0xF0070007, 0, .pageDrop 7),
    (0xF1090008, 0, .rmonRd 8 9)] : List (Half × Half × Instr)),
    decodeControl e.1 e.2.1 = .ok e.2.2 := by decide +kernel

theorem test_words_system : ∀ e ∈ ([
    (0xF8000003, 0, .trap 3), (0xF8010000, 0, .tret), (0xF8022824, 0, .csrRd 5 0x024), (0xF8033026, 0, .csrWr 6 0x026),
    (0xF8040000, 0, .idle), (0xF8053800, 0, .timeRd 7), (0xF8100005, 0, .dbgBrk 5), (0xF8110107, 0, .trcMark 4 7),
    (0xF8120000, 0, .trcFrz), (0xF8130000, 0, .ckptReq)] : List (Half × Half × Instr)),
    decodeControl e.1 e.2.1 = .ok e.2.2 := by decide +kernel

theorem test_words_elements : ∀ e ∈ ([
    (0x01027FC1, .iadd 0x004 0x1FF 0 0 1), (0x23127FC0, .ffma 0x024 0x1FF 0 0 0), (0x41068440, .steer 0x00D 0x011 0 0),
    (0x42847FC8, .merge 0x108 0x1FF 0 1), (0x20A27FC5, .fadd 0x144 0x1FF 0 0 5), (0x332A7F21, .bfma2 0x054 0x1FC 2 0 1),
    (0x22827FD0, .fmul 0x104 0x1FF 1 0 0), (0x45807FC0, .acc 0x100 0x1FF 0 0 0), (0x2A0E7FC0, .fxp 0x01C 0x1FF 0 0),
    (0x390EFFC0, .f2i 0x01D 0x1FF 0 0 0)] : List (Half × Instr)), decodeElem e.1 = .ok e.2 := by decide +kernel

theorem test_words_generators_and_ports : ∀ e ∈ ([
    (0x50FFFFC0, .agl 0), (0x54027FC0, .rin 0x004 0x1FF 0)] : List (Half × Instr)), decodeElem e.1 = .ok e.2 := by decide +kernel

/-- R29, R46: a word of no major or no fn, with an unused bit set, or the element word 0, is no instruction. -/
theorem test_words_rejected : decodeControl 0xFFFFFFFF 0 = .error .unassigned ∧ decodeControl 0x0064280F 0 = .error .unassigned ∧
    decodeControl 0x48050001 0 = .error .unassigned ∧ decodeControl 0x50010001 0 = .error .unusedField ∧ decodeElem 0 = .error .unassigned := by
  decide +kernel

/-! ### WellFormed refuses an ill-formed term of each check (R29, R33 to R39, R44 to R46) -/

theorem test_ill_formed_control : ∀ i ∈ ([.cmpEq 8 0 0, .cmpGeu 31 0 0, .bfx 1 1 63 1, .bfi 1 1 1 63, .bc 0 0 5, .st8 1 1 3 0, .st64 1 1 3 0,
    .ldp 31 1 0 0, .stp 31 1 0 0, .stp 2 1 3 0, .atAdd 1 2 3 2 0 0, .atLd 1 2 0 3 0, .spill 16 16, .fill 31 1, .waitEq 1 1 3 0 0, .waitNe 1 1 0 2 0,
    .ringDef 16 1, .ringStat 1 31, .qClaim 25 1] : List Instr), wellFormed i = false := by decide +kernel

theorem test_ill_formed_extended : ∀ i ∈ ([.mxCfg 1 5, .mxCfg 1 (6 * 8), .mxCfg 1 0x80000, .mxLdbGroups 1 1 0 16, .mxRunStride 1 1 0 0 0x100000,
    .mxOutRingExt 1 1 0 0x50000, .mxOutAstoreExt 1 1 0 0x80000, .spCfg 1 3, .spCfg 1 0x14, .spCfg 1 0x20, .spShape 1 1 1 0x1000,
    .spStExt 0 1 1 1 1 0, .spStExt 1 1 1 1 1 0, .spStExt 0 0 1 1 1 0x50000, .spStRecord 1 1 1 0, .spUpNosave 1 1 1 2, .spDownAcc 1 1 1 2,
    .cpExpect 1 1 1 0x100000, .msPullDone 1 1 1 0x100000] : List Instr), wellFormed i = false := by decide +kernel

theorem test_ill_formed_elements : ∀ i ∈ ([.iadd 0x101 0x1FF 0 0 0, .iadd 0x180 0x1FF 0 0 0, .iadd 0 0x1FD 0 0 0, .iadd 0 0x1FF 0 0 3, .icmp 0 0x1FF 0 0 6,
    .fadd 0 0x1FF 0 0 6, .merge 0x1FE 0x1FF 0 0, .rin 0x181 0x1FF 0, .rep 0 0x105 0] : List Instr), wellFormed i = false := by decide +kernel

/-! ### Witnesses: concrete states and operands that meet the hypotheses of the statements -/

/-- Partition 0 with tile 0, granule 0, function 0 and an identity page, and thread 0 Ready at level S. -/
def base : State := { State.reset.withControlWord 0 with turns := [] }

def th : Thread := { num := 0, pc := 0x100000, sw := swOf 1 0 0 0, maxLevel := 1 }

/-- The state in which this thread acts. -/
def act (t : Thread) : State := base.setThread t

/-- The thread with a register set. -/
def with1 (v : Word) : Thread := th.setReg 1 v

theorem witness_scalar : Issues base th ∧ (0 : BitVec 6).toNat + (63 : BitVec 6).toNat + 1 ≤ 64 ∧ (7 : BitVec 5).toNat ≤ 7 := by decide +kernel

theorem witness_transfers : Issues (act (with1 0x104)) (with1 0x104) ∧ ((with1 0x104).reg (1 : BitVec 5).toNat).toNat % 4 = 0 ∧
    ((with1 0).reg 31).toNat % 4 = 0 ∧ ¬((0 : BitVec 3) = 0 ∧ (1 : BitVec 1) = 0) := by decide +kernel

theorem witness_misaligned_target : Issues (act (with1 2)) (with1 2) ∧ ((with1 2).reg (1 : BitVec 5).toNat).toNat % 4 ≠ 0 ∧
    ((th.setReg 31 1).reg 31).toNat % 4 ≠ 0 := by decide +kernel

theorem witness_misaligned_access : Issues (act (with1 1)) (with1 1) ∧ (∀ f ∈ storeForms, f.2 = 1 ∨ (addressOf (with1 1) 1 0 f.2).toNat % f.2 ≠ 0) ∧
    (∀ f ∈ loadForms, f.2.1 = 1 ∨ (addressOf (with1 1) 1 0 f.2.1).toNat % f.2.1 ≠ 0) ∧ (addressOf (with1 1) 1 0 16).toNat % 16 ≠ 0 ∧
    ((with1 1).reg (1 : BitVec 5).toNat).toNat % sizeOf_ 1 ≠ 0 ∧ (addressOf (with1 1) 1 0 (sizeOf_ 0)).toNat % sizeOf_ 0 ≠ 0 := by decide +kernel

theorem witness_snapshot : th.snap ≤ base.pubCount := by decide

/-- The last byte of the A-store, and of the C-store as a U-level thread reads it. -/
theorem witness_load : Issues (act (with1 0xFFFFF)) (with1 0xFFFFF) ∧ (addressOf (with1 0xFFFFF) 1 0 1).toNat % 1 = 0 ∧
    Passes (act (with1 0xFFFFF)) (with1 0xFFFFF) 1 .read (addressOf (with1 0xFFFFF) 1 0 1) 1 0x80000000FFFFF ∧
    Passes (act (with1 0xFFFF8)) (with1 0xFFFF8) 1 .read (addressOf (with1 0xFFFF8) 1 0 8) 8 0x80000000FFFF8 ∧
    Passes (act (with1 0x300000)) (with1 0x300000) 0 .read (addressOf (with1 0x300000) 1 0 4) 4 0x300000 := by decide +kernel

theorem witness_check : (0xFFFFC : Word).toNat + 8 > 2 ^ 20 ∧ (0xFFFF8 : Word).toNat + 8 ≤ 2 ^ 20 ∧ base.badBlocks = [] ∧ 2 ^ 56 ≤ (0x100000000000000 : Word).toNat := by
  decide +kernel

theorem witness_store : Issues (act (with1 0xFFFF8)) (with1 0xFFFF8) ∧ (addressOf (with1 0xFFFF8) 1 0 8).toNat % 8 = 0 ∧
    Passes (act (with1 0xFFFF8)) (with1 0xFFFF8) 1 .write (addressOf (with1 0xFFFF8) 1 0 8) 8 0x80000000FFFF8 ∧
    Passes (act (with1 0x300000)) (with1 0x300000) 0 .write (addressOf (with1 0x300000) 1 0 4) 4 0x300000 := by decide +kernel

theorem witness_pair : (addressOf (with1 0xFFFF0) 1 0 16).toNat % 16 = 0 ∧ Issues (act (with1 0xFFFF0)) (with1 0xFFFF0) ∧
    Passes (act (with1 0xFFFF0)) (with1 0xFFFF0) 1 .read (addressOf (with1 0xFFFF0) 1 0 16) 16 0x80000000FFFF0 ∧
    Passes (act (with1 0xFFFF0)) (with1 0xFFFF0) 1 .write (addressOf (with1 0xFFFF0) 1 0 16) 16 0x80000000FFFF0 := by decide +kernel

/-- The expected old value of a `cas` that writes is 0 here, and of one that does not 1. -/
theorem witness_atomic : Issues (act (with1 0xFFFF8)) (with1 0xFFFF8) ∧ ((act (with1 0xFFFF8)).part 0).replay = [] ∧
    ((with1 0xFFFF8).reg (1 : BitVec 5).toNat).toNat % sizeOf_ 1 = 0 ∧
    Passes (act (with1 0xFFFF8)) (with1 0xFFFF8) 1 .atomic ((with1 0xFFFF8).reg 1) 8 0x80000000FFFF8 ∧
    Passes (act (with1 0xFFFF8)) (with1 0xFFFF8) 1 .read ((with1 0xFFFF8).reg 1) 8 0x80000000FFFF8 ∧
    (act (with1 0xFFFF8)).readNat 0x80000000FFFF8 8 = ((with1 0xFFFF8).reg 2).toNat % 256 ^ 8 ∧
    (act (with1 0xFFFF8)).readNat 0x80000000FFFF8 8 ≠ ((with1 0xFFFF8).reg 1).toNat % 256 ^ 8 := by decide +kernel

/-- A matrix clear of thread 0 that is still queued. -/
def queuedClear : Cmd := { id := 1, name := { thread := 0, actor := 0xFFFF }, op := .clr 0 }
def busyTile : State := base.setTile 0 { base.tile 0 with mxQ := [queuedClear] }

theorem witness_phases : Issues base th ∧ (issuedIn base th).outstanding (issuedBy base th) = false ∧ Issues busyTile th ∧
    (issuedIn busyTile th).outstanding (issuedBy busyTile th) = true := by decide +kernel

theorem witness_pub : Issues base th ∧ th.region = none := by decide +kernel

/-- A second clear of thread 0 behind a fence that the first one, still queued, is older than. -/
def fencedClear : Cmd := { queuedClear with id := 2, fence := 2 }
def fencedTile : State := base.setTile 0 { base.tile 0 with mxQ := [fencedClear], skQ := [queuedClear] }

theorem witness_fence : queuedClear ∈ (fencedTile.tile (0 / 4)).cmds ∧ queuedClear.name.thread = 0 ∧ queuedClear.id < fencedClear.fence ∧
    ((fencedTile.tile (0 / 4)).queue .mx).find? (fun x => decide (x.name.thread = 0)) = some fencedClear ∧ base.fenceOk 0 0 = true ∧
    busyTile.fenceOk 0 2 = false := by decide +kernel

/-- The word at 0 of the A-store is 0: it equals `s0` and differs from `s1`. -/
theorem witness_waits : Issues (act (with1 8)) (with1 8) ∧ (addressOf (with1 8) 1 0 (sizeOf_ 1)).toNat % sizeOf_ 1 = 0 ∧
    Passes (act (with1 8)) (with1 8) 1 .read (addressOf (with1 8) 1 0 (sizeOf_ 1)) (sizeOf_ 1) 0x8000000000008 ∧
    (act (with1 8)).readNat 0x8000000000008 (sizeOf_ 1) = ((with1 8).reg 0).toNat % 256 ^ sizeOf_ 1 ∧
    (act (with1 8)).readNat 0x8000000000008 (sizeOf_ 1) ≠ ((with1 8).reg 1).toNat % 256 ^ sizeOf_ 1 := by decide +kernel

/-- LIMIT 0, TOP 512: the push that empties the range, and the pop that fills it. -/
def spillTh (ptr : Nat) : Thread := { th with spill := word (ptr + 512 * 2 ^ 36) }

theorem witness_spill : Issues (act (spillTh 64)) (spillTh 64) ∧ (24 : BitVec 5).toNat + (7 : BitVec 6).toNat ≤ 31 ∧
    8 * 8 + wbits (spillTh 64).spill 18 18 ≤ wbits (spillTh 64).spill 0 18 ∧ (issuedIn (act (spillTh 64)) (spillTh 64)).rangeHeld 0 0 64 = false ∧
    wbits (spillTh 448).spill 0 18 + 8 * 8 ≤ wbits (spillTh 448).spill 36 18 ∧
    (issuedIn (act (spillTh 448)) (spillTh 448)).rangeHeld 0 448 512 = false ∧ (act (spillTh 448)).badBlocks = [] := by decide +kernel

/-- One doubleword past LIMIT and TOP, and a range whose columns another thread of the tile holds. -/
def heldRange (ptr : Nat) : State := (act (spillTh ptr)).setThread { th with num := 1, mxTcfg := word (1 * 2 ^ 3 + 1 * 2 ^ 11 + 512 * 2 ^ 28) }

theorem witness_spill_traps : wbits (spillTh 56).spill 0 18 < 8 * 8 + wbits (spillTh 56).spill 18 18 ∧
    wbits (spillTh 456).spill 36 18 < wbits (spillTh 456).spill 0 18 + 8 * 8 ∧ Issues (heldRange 64) (spillTh 64) ∧
    (issuedIn (heldRange 64) (spillTh 64)).rangeHeld 0 0 64 = true ∧ Issues (heldRange 448) (spillTh 448) ∧
    (issuedIn (heldRange 448) (spillTh 448)).rangeHeld 0 448 512 = true := by decide +kernel

def userTh : Thread := { th with sw := swOf 0 0 2 0 }
def vecState : State := (base.setPart 0 { base.part 0 with vec := 0x200000 }).setThread userTh

theorem witness_user_trap : userTh.level = 0 ∧ userTh.hnd = false ∧ (vecState.part userTh.part).vec ≠ 0 := by decide +kernel

theorem witness_other_trap : th.level ≠ 0 ∧ th.region = none ∧ th.wait = none ∧ (base.part th.part).recRing = 0 ∧ (base.part userTh.part).vec = 0 ∧
    (∀ c ∈ (base.tile 0).cmds, c.name.thread ≠ th.num) ∧ ∃ c ∈ (busyTile.tile 0).cmds, c.name.thread = th.num := by decide +kernel

def handler (tsw : Word) : Thread := { th with sw := swOf 1 1 0 0, tsw := tsw }

theorem witness_tret : Issues (act (handler 0)) (handler 0) ∧ (handler 0).hnd = true ∧ (0 : Nat) ∈ ((act (handler 0)).part 0).functions ∧
    (handler 0).rpc.toNat % 4 = 0 ∧ (handler 1).tsw.toNat % 4 ≤ (handler 1).level ∧ th.hnd = false ∧ ¬((handler 3).tsw.toNat % 4 ≠ 3) ∧
    Issues (act (handler 3)) (handler 3) ∧ (handler 2).level < (handler 2).tsw.toNat % 4 ∧
    (let t := { handler 1 with rpc := 6 }; Issues (act t) t ∧ t.hnd = true ∧ t.tsw.toNat % 4 ≤ t.level ∧ t.rpc.toNat % 4 ≠ 0) := by decide +kernel

def broken : State := base.setTile 0 { base.tile 0 with brk := #v[word (0x100000 * 2 ^ 8 + 5), 0, 0, 0] }

theorem witness_breakpoint : broken.thread? 0 = some th ∧ th.state = .ready ∧ th.pending = [] ∧ th.afterTret = false ∧
    (broken.fetchPair (broken.begin_ th)).2 = .ok (0, 0) ∧
    (let b := ((broken.tile 0).brk.toArray.getD 0 0).toNat; b % 2 = 1 ∧ b / 2 % 2 = 0 ∧ b / 2 ^ 2 % 2 = 1 ∧ b / 256 = th.pc.toNat % 2 ^ 56) := by decide +kernel

theorem witness_ill : Issues base th ∧ (8 : BitVec 5).toNat > 7 ∧ (1 : BitVec 6).toNat + (63 : BitVec 6).toNat + 1 > 64 := by decide +kernel

/-- Slot 1 is Free; with all four slots live none is. -/
def full : State := [1, 2, 3].foldl (fun s n => s.setThread { th with num := n }) base

theorem witness_spawn : Issues base th ∧ th.region = none ∧ (base.part th.part).replay = [] ∧ (th.reg 1).toNat % 4 = 0 ∧ base.thread? 1 = none ∧
    Issues full th ∧ (∀ k, k < 4 → (full.thread? k).isSome ∨ k = th.num) := by decide +kernel

/-- Alone on its tile, thread 0 has no live member but itself; with slot 3 live and in the mask it waits. -/
theorem witness_bar : Issues base th ∧ (base.tile 0).barOpen = false ∧ (∀ k, k < 4 → k ≠ 0 → base.thread? k = none) ∧
    Issues (full.setThread (with1 8)) (with1 8) ∧ ((with1 8).reg 1).getLsbD 3 = true ∧ (full.thread? 3).isSome := by decide +kernel

/-- A generation of threads 0 and 3, of which some have arrived; thread 3 waits. -/
def barState (arrived : Nat) : State :=
  let s := (act (with1 8)).setThread { th with num := 3, state := .waiting, wait := some { instr := .bar 1 } }
  s.setTile 0 { s.tile 0 with barOpen := true, barMask := 9, barReq := 9, barArr := arrived }

theorem witness_bar_open : Issues (barState 8) (with1 8) ∧ ((barState 8).tile 0).barOpen = true ∧
    ((with1 8).reg 1).toNat % 16 ||| 2 ^ 0 = ((barState 8).tile 0).barMask ∧ ((with1 8).reg 0).toNat % 16 ||| 2 ^ 0 ≠ ((barState 8).tile 0).barMask ∧
    (∀ k, k < 4 → k ≠ 0 → ((barState 8).tile 0).barReq.testBit k = true → ((barState 8).tile 0).barArr.testBit k = true) ∧
    ((barState 0).tile 0).barReq.testBit 3 = true ∧ ((barState 0).tile 0).barArr.testBit 3 = false ∧
    ((barState 8).thread? 3).any (fun v => decide (v.num = 3 ∧ AtBar 0 v)) = true := by decide +kernel

theorem witness_spawn_traps : Issues (act (with1 2)) (with1 2) ∧ (with1 2).region = none ∧ ((with1 2).reg 1).toNat % 4 ≠ 0 := by decide +kernel

def regionTh : Thread := { th with region := some { isTask := false, startPc := 0, regs := th.regs, preds := 1, spill := 0 } }

theorem witness_exit : Issues base th ∧ th.region = none ∧ (issuedIn base th).outstanding (issuedBy base th) = false ∧
    (∀ n, n < 4 → (th.expects.toArray.getD n {}).armed = false) ∧ Issues (act regionTh) regionTh ∧ regionTh.region ≠ none := by decide +kernel

/-- Expectation 2 is ARMED and those below are not; in `barState` every other required thread has arrived, or thread 3 has not. -/
def armedTh : Thread := { th with expects := th.expects.set 2 { armed := true } }

theorem witness_exit_waits : (issuedIn busyTile th).outstanding (issuedBy busyTile th) = true ∧ Issues (act armedTh) armedTh ∧ armedTh.region = none ∧
    (issuedIn (act armedTh) armedTh).outstanding (issuedBy (act armedTh) armedTh) = false ∧ (armedTh.expects.toArray.getD 2 {}).armed = true ∧
    (∀ k, k < 2 → (armedTh.expects.toArray.getD k {}).armed = false) ∧
    (issuedIn (barState 8) (with1 8)).outstanding (issuedBy (barState 8) (with1 8)) = false ∧
    (issuedIn (barState 0) (with1 8)).outstanding (issuedBy (barState 0) (with1 8)) = false := by decide +kernel

def machineTh : Thread := { th with sw := swOf 2 0 0 0 }

/-- A resident page on tile 0, and a trace record to be read. -/
def residentState : State := { base with pages := [(5, { id := 5, part := 0, inst := 1, ordinal := 0, index := 0, region := some 0, image := [] })] }
def tracedTile : State := base.setTile 0 { base.tile 0 with trace := [⟨1, 2, 3, 4⟩], trcSel := word (3 * 2 ^ 11) }

theorem witness_csr : Issues base th ∧ 1 ≤ th.level ∧ Issues (act userTh) userTh ∧ userTh.level = 0 ∧ Issues (act machineTh) machineTh ∧
    2 ≤ machineTh.level ∧ Issues residentState th ∧ (residentState.pages.find? (fun e => decide (e.2.region = some 0))).isSome = true ∧
    base.pages.find? (fun e => decide (e.2.region = some 0)) = none ∧ Issues tracedTile th ∧
    (tracedTile.tile 0).trcSel = word (3 / 4 + 3 % 4 * 2 ^ 11) ∧ (tracedTile.tile 0).trace[3 / 4]? = some ⟨1, 2, 3, 4⟩ := by decide +kernel

/-! #### Time, events, records, rings -/

def idler (since : Nat) : Thread := { th with state := .waiting, wait := some { instr := .idle, since := since } }

theorem witness_time : Issues base th ∧ (base.part th.part).replay = [] ∧ (act (idler 0)).thread? 0 = some (idler 0) ∧ (idler 0).state = .waiting ∧
    (3 : Word).toNat % 4 = 3 := by decide +kernel

/-- No partition has a checkpoint period, nothing is mapped and nobody waits. -/
def unhurried : State := base.setPart 0 { base.part 0 with ckPeriod := 0 }

theorem witness_time_step : unhurried.queues = [] ∧ (∀ e ∈ unhurried.parts, e.2.ckPeriod.toNat % 2 ^ 24 = 0) ∧
    (∀ e ∈ unhurried.threads, e.2.wait = none) ∧ (unhurried.dev.time + 999999) % 2 ^ 64 / 1000000 ≤ unhurried.dev.interval := by decide +kernel

def trapped : Thread := { th with pending := [⟨0x61, 0x100, 3, 5⟩] }

theorem witness_delivery : (act trapped).thread? 0 = some trapped ∧ trapped.pending = ⟨0x61, 0x100, 3, 5⟩ :: [] ∧ trapped.hnd = false ∧
    trapped.state = .ready ∧ trapped.wait = none ∧ trapped.stopDue = none ∧ 1 ≤ th.level := by decide +kernel

def owes : State := base.setPart 0 { base.part 0 with backlog := [{ cause := 1, kind := 1 }], recRing := word (0x300000 + 4) }

/-- The room is the last slot: 15 of 16 records stand. -/
def owesFull : State := { owes with mem := owes.mem.write (cellsAt 0x300000 (leBytes 8 15)) }

theorem witness_backlog : (owesFull.part 0).backlog = [{ cause := 1, kind := 1 }] ∧ (owesFull.part 0).recRing = word (0x300000 + 4) ∧
    (owesFull.translate 0 0 1 false .write 0x300000 16).2 = .ok 0x300000 ∧ owesFull.bad 0x300000 16 = false ∧ owesFull.readNat 0x300000 8 - owesFull.readNat 0x300008 8 < 16 ∧
    ((owesFull.translate 0 0 1 false .write 0x300000 16).1.translate 0 0 1 false .write (0x300000 + 128 * 16) 64).2 = .ok 0x300800 := by decide +kernel

/-- A handle of BASE 0x4000, LRCB 0x1000, PRCB 0x1040, two 64-byte units a slot, DEPTH 8, to a peer of a kind. -/
def rigHandle (role pk pva l p : Nat) : Handle :=
  { bound := true, d0 := word (0x4000 + 0x1000 * 2 ^ 20 + 0x1040 * 2 ^ 40 + role * 2 ^ 60), d1 := word (2 + 8 * 2 ^ 10 + pk * 2 ^ 30), d2 := 0, d3 := word pva
    l := word l, p := p }

/-- A thread whose handle 3 is bound and whose `s1` holds a count; the peer's counter stands at `remote`, its own in LOCAL. -/
def ringTh (role pk l n : Nat) : Thread := (th.setHandle 3 (rigHandle role pk (if role = 1 ∧ pk = 0 then 0x500000 else 0) l 0)).setReg 1 (word n)
def counters (remote local_ : Nat) : List (Nat × Byte) := cellsAt 0x8000000001000 (leBytes 8 remote ++ leBytes 8 local_)
def ringState (t : Thread) (remote : Nat) : State := { act t with mem := base.mem.write (counters remote (t.handle 3).l.toNat) }

/-- A producer whose peer is tile 1, which is not the partition's. -/
def farTh : Thread := th.setHandle 3 { rigHandle 1 0 0x500000 10 0 with d1 := word (2 + 8 * 2 ^ 10 + 1 * 2 ^ 22) }
def farConsumer : Thread := th.setHandle 3 { rigHandle 0 0 0 10 0 with d1 := word (2 + 8 * 2 ^ 10 + 1 * 2 ^ 22) }

theorem witness_reaches : ¬ReachesOwn (ringState farTh 5) 0 (farTh.handle 3) ∧ ¬ReachesOwn (ringState farConsumer 13) 0 (farConsumer.handle 3) ∧
    ReachesOwn base 0 ((ringTh 1 0 10 4).handle 3) ∧ ReachesOwn base 0 ((ringTh 0 1 10 4).handle 3) :=
  ⟨fun h => absurd (h.1 (by decide +kernel)).1 (by decide +kernel), fun h => absurd (h.1 (by decide +kernel)).1 (by decide +kernel),
    ⟨fun _ => ⟨by decide +kernel, fun _ h => absurd h (Nat.not_lt_zero _)⟩, fun h => absurd h (by decide +kernel)⟩,
    fun h => absurd h (by decide +kernel), fun h => absurd h (by decide +kernel)⟩

theorem witness_ring_traps : Standing (ringState farTh 5) farTh 3 1 3 ∧ Standing (ringState farConsumer 13) farConsumer 3 0 3 ∧ (th.handle 3).bound = false ∧
    ((ringTh 0 0 10 9).handle 3).depth < ((ringTh 0 0 10 9).reg 1).toNat ∧ ((ringTh 0 0 10 8).handle 3).depth ≤ ((ringTh 0 0 10 8).reg 1).toNat ∧
    (1 ≤ ((ringTh 1 0 10 9).handle 3).depth ∧ ((ringTh 1 0 10 9).handle 3).nrep = 0 ∧ ((ringTh 1 0 10 9).handle 3).bound = true) ∧
    ({ rigHandle 1 0 0 10 0 with d1 := word (2 + 8 * 2 ^ 10 + 1 * 2 ^ 32) } : Handle).nrep ≠ 0 := by decide +kernel

/-- A consumer with three slots, a producer with three free: the counts 3 and 4 are on either side of Avail. -/
theorem witness_ring_wait : Issues (ringState (ringTh 0 0 10 3) 13) (ringTh 0 0 10 3) ∧ Standing (ringState (ringTh 0 0 10 3) 13) (ringTh 0 0 10 3) 3 0 3 ∧
    Issues (ringState (ringTh 0 0 10 4) 13) (ringTh 0 0 10 4) ∧ ((ringTh 0 0 10 4).reg 1).toNat ≤ ((ringTh 0 0 10 4).handle 3).depth ∧
    Standing (ringState (ringTh 1 0 10 3) 5) (ringTh 1 0 10 3) 3 1 3 ∧ Standing (ringState (ringTh 1 1 10 3) 5) (ringTh 1 1 10 3) 3 1 3 := by decide +kernel

theorem witness_ring_take : NoCut base (ringTh 0 0 10 3) ∧ (ringTh 0 0 10 3).region = none ∧ ((ringTh 0 0 10 3).reg 1).toNat < ((ringTh 0 0 10 3).handle 3).depth ∧
    ((ringTh 1 0 10 3).handle 3).nrep = 0 := by
  refine ⟨?_, by decide +kernel⟩; intro i h; simp [base, State.withControlWord, State.inst?, State.setThread, State.setTile, State.setPart, State.reset] at h

def ringRegion : Thread := { ringTh 0 0 10 3 with region := regionTh.region }

theorem witness_ring_deferred : Issues (ringState ringRegion 13) ringRegion ∧ Standing (ringState ringRegion 13) ringRegion 3 0 3 ∧
    ringRegion.region.isSome = true ∧ (ringState ringRegion 13).declared ringRegion 3 = none := by decide +kernel

theorem witness_ring_slot : ((ringTh 1 0 10 7).reg 1).toNat < ((ringTh 1 0 10 7).handle 3).depth ∧ ((ringTh 1 0 10 7).handle 3).pva ≠ 0 ∧
    ((ringTh 1 0 10 7).handle 3).role = 1 ∧ ((ringTh 1 1 10 7).handle 3).peerKind ≠ 0 ∧ ((ringTh 0 0 10 7).handle 3).role = 0 ∧
    ((ringTh 0 0 10 7).handle 2).bound = false ∧ availNow (ringState (ringTh 0 0 10 7) 9) 0 ((ringTh 0 0 10 7).handle 3) < 0 ∧
    BlockReads (ringState (ringTh 0 0 10 7) 13) 0 ((ringTh 0 0 10 7).handle 3) ∧ CountersKept (ringState (ringTh 0 0 10 7) 13) 0 ((ringTh 0 0 10 7).handle 3) ∧
    (rigHandle 1 0 0 10 0).pva = 0 ∧ (rigHandle 1 0 0 10 0).nrep = 0 := by decide +kernel

/-- The descriptor of a consumer at 0x300000, and one whose DEPTH is 0. -/
def descState (depth : Nat) : State :=
  { act (with1 0x300000) with mem := base.mem.write (cellsAt 0x300000 (leBytes 8 (0x4000 + 0x1000 * 2 ^ 20 + 0x1040 * 2 ^ 40) ++ leBytes 8 (2 + depth * 2 ^ 10))) }
def descHandle (depth : Nat) : Handle := { bound := true, d0 := word (0x4000 + 0x1000 * 2 ^ 20 + 0x1040 * 2 ^ 40), d1 := word (2 + depth * 2 ^ 10) }

/-- Rings that end at the end of the A-store and one slot further. -/
theorem witness_descriptor : KeepsR189 (descState 8) 0 (0x4000 + 0x1000 * 2 ^ 20) (2 + 8 * 2 ^ 10) 0 0 ∧
    KeepsR189 (descState 8) 0 0x1000 (4 + 4080 * 2 ^ 10 + 2 ^ 30) 0 0 ∧ ¬KeepsR189 (descState 8) 0 0x1000 (4 + 4081 * 2 ^ 10 + 2 ^ 30) 0 0 ∧
    ¬KeepsR189 (descState 0) 0 (0x4000 + 0x1000 * 2 ^ 20) 2 0 0 :=
  ⟨⟨by decide +kernel, by decide +kernel, by decide +kernel, by decide +kernel, by decide +kernel, by decide +kernel, by decide +kernel, by decide +kernel⟩,
    ⟨by decide +kernel, by decide +kernel, by decide +kernel, by decide +kernel, by decide +kernel, by decide +kernel, by decide +kernel, by decide +kernel⟩,
    fun h => absurd h.2.2.2.2.2.2.1 (by decide +kernel), fun h => absurd h.2.2.1.2.1 (by decide +kernel)⟩

theorem witness_ring_def : Issues (descState 8) (with1 0x300000) ∧ ((with1 0x300000).handle 3).bound = false ∧
    ((ringIn (descState 8) (with1 0x300000)).loadGlobal (issuedBy (descState 8) (with1 0x300000)) 0x300000 32).2 =
      .ok (leBytes 8 (0x4000 + 0x1000 * 2 ^ 20 + 0x1040 * 2 ^ 40) ++ leBytes 8 (2 + 8 * 2 ^ 10) ++ zeros 16) ∧
    BlockReads (descState 8) 0 (descHandle 8) ∧ (with1 0x300000).region = none ∧ ((with1 0x300000).reg 1).toNat % 32 = 0 ∧
    Issues (act (with1 0x300008)) (with1 0x300008) ∧ ((with1 0x300008).reg 1).toNat % 32 ≠ 0 := by decide +kernel

theorem witness_handle_held : ¬HandleHeld (descState 8) (with1 0x300000) 3 ∧ HandleHeld base (th.setHandle 3 (rigHandle 0 0 0 10 1)) 3 :=
  ⟨fun h => absurd h.1 (by decide +kernel), by decide +kernel, .inl (by decide +kernel)⟩

/-! #### Engines -/

/-- A thread with every matrix column, Skink's banks, trees and shape registers, and two operands. -/
def engTh (v w : Word) : Thread :=
  (({ th with mxTcfg := word (1 * 2 ^ 3 + 1 * 2 ^ 11 + 512 * 2 ^ 28), skTcfg := word (0xFFFF + 0xF * 2 ^ 16 + 64 * 2 ^ 26) } : Thread).setReg 1 v).setReg 2 w

/-- A window of the whole store, and one of one row and column at the highest place. -/
def wholeWindow : Word := word (128 * 2 ^ 7 + 512 * 2 ^ 24)
def lastWindow : Word := word (127 + 1 * 2 ^ 7 + 511 * 2 ^ 15 + 1 * 2 ^ 24)

theorem witness_matrix_config : Issues (act (with1 (word (512 * 2 ^ 9)))) (with1 (word (512 * 2 ^ 9))) ∧ acceptedFormat 1 ∧ 0 + 512 ≤ 512 ∧
    (∀ e ∈ (act (with1 0)).threads, e.2.num / 4 = 0 → e.2.num ≠ 0 → mxCount e.2.mxTcfg = 0) ∧ wbits th.spill 36 18 ≤ wbits th.spill 18 18 := by decide +kernel

def sumCfgOperand : Word := word (0xFFFF + 0xF * 2 ^ 16 + 64 * 2 ^ 26)
def queuedNorm : Cmd := { id := 1, name := { thread := 0 }, op := .norm 0 none }

theorem witness_sum_config : sumCfgOperand.toNat < 2 ^ 33 ∧ wbits sumCfgOperand 20 6 + wbits sumCfgOperand 26 7 ≤ 64 ∧ wbits sumCfgOperand 16 4 ≠ 0 ∧
    (∀ c ∈ (base.tile 0).skQ, c.name.thread ≠ 0) ∧ base.fenceOk 0 0 = true ∧
    (∃ c ∈ ((base.setTile 0 { base.tile 0 with skQ := [queuedNorm] }).tile 0).skQ, c.name.thread = 0) := by decide +kernel

/-- A second thread with matrix columns 256 on, and a fence that no earlier command holds up. -/
def rival : State := (act (with1 (word (512 * 2 ^ 9)))).setThread { th with num := 1, mxTcfg := word (1 * 2 ^ 3 + 1 * 2 ^ 11 + 256 * 2 ^ 19 + 256 * 2 ^ 28) }

theorem witness_config_waits : Issues rival (with1 (word (512 * 2 ^ 9))) ∧ mxBase (word (256 * 2 ^ 19 + 256 * 2 ^ 28)) = 256 ∧ mxCount (word (256 * 2 ^ 19 + 256 * 2 ^ 28)) = 256 ∧
    busyTile.fenceOk 0 2 = false ∧ (∀ e ∈ base.threads, e.2.num / 4 = 0 → e.1 ≠ 0 → ∀ w ∈ base.skConfigs e.2, skMeets sumCfgOperand w = false) := by decide +kernel

theorem witness_engine_waits : (∀ c ∈ (base.tile 0).mxQ, c.name.thread ≠ 0) ∧ (∃ c ∈ (busyTile.tile 0).mxQ, c.name.thread = 0) := by decide +kernel

theorem witness_matrix_store : Issues (act (engTh 0x7FFC0 64)) (engTh 0x7FFC0 64) ∧ ((engTh 0x7FFC0 64).reg 1).toNat + ((engTh 0x7FFC0 64).reg 2).toNat ≤ 2 ^ 19 ∧
    WindowFits (engTh 0 wholeWindow) ((engTh 0 wholeWindow).reg 2) 128 (outputColumns (engTh 0 wholeWindow)) ∧
    WindowFits (engTh 0xFFFC0 lastWindow) ((engTh 0xFFFC0 lastWindow).reg 2) 128 512 ∧ ¬WindowFits (engTh 0 lastWindow) ((engTh 0 lastWindow).reg 2) 64 512 ∧
    0xFFFC0 + winRows lastWindow * 64 * ((winCols lastWindow + 15) / 16) ≤ 2 ^ 20 ∧ 0xFFFC0 + (winRows lastWindow - 1) * 0xFFFC0 + 64 ≤ 2 ^ 20 := by decide +kernel

/-- Two slots of handle 3 for a window of two rows. -/
def rowsWindow : Word := word (2 * 2 ^ 7 + 16 * 2 ^ 24)
def engRing (role l : Nat) (w : Word) : Thread := (engTh 0 w).setHandle 3 (rigHandle role 1 0 l 0)

theorem witness_matrix_ring : Issues (ringState (engRing 0 10 rowsWindow) 12) (engRing 0 10 rowsWindow) ∧
    Standing (ringState (engRing 0 10 rowsWindow) 12) (engRing 0 10 rowsWindow) 3 0 2 ∧ Standing (ringState (engRing 0 11 rowsWindow) 12) (engRing 0 11 rowsWindow) 3 0 1 ∧
    Standing (ringState (engRing 1 10 rowsWindow) 4) (engRing 1 10 rowsWindow) 3 1 2 ∧ winRows rowsWindow = 2 ∧ WindowFits (engRing 0 10 rowsWindow) rowsWindow 64 512 ∧
    (winCols rowsWindow + 15) / 16 + 1 ≤ ((engRing 1 10 rowsWindow).handle 3).slot64 ∧ (ringState (engRing 0 10 rowsWindow) 12).declared (engRing 0 10 rowsWindow) 3 = none := by
  decide +kernel

def clearState : State := base.setTile 0 { base.tile 0 with mxQ := [{ queuedClear with op := .clr lastWindow }] }

theorem witness_matrix_clear : clearState.mem.wf = true ∧ (clearState.tile 0).mxQ = [{ queuedClear with op := .clr lastWindow }] ∧
    clearState.engineChoice .mx 0 = some 0 ∧ winCol lastWindow + winCols lastWindow ≤ 512 ∧ winRow lastWindow + winRows lastWindow ≤ 128 := by decide +kernel

/-- The next command of the matrix unit on tile 0, with 8-bit blocks from an address on. -/
def mxState (op : CmdOp) (at_ n : Nat) : State :=
  { base.setTile 0 { base.tile 0 with mxQ := [{ queuedClear with op }], macro0 := { modes := Vector.replicate 4 1 } } with
    descs := (List.range n).map fun b => (at_ / 64 + b, 8) }

theorem witness_matrix_load : (mxState (.ldb 0x78000 32768 1 3 1) (0x8000000000000 + 0x100000 + 0x78000) 512).engineChoice .mx 0 = some 0 ∧
    (0x78000 : Nat) % 64 = 0 ∧ 0x78000 + 32768 ≤ 2 ^ 19 ∧ mxMode queuedClear.cfg ≤ 1 ∧
    (∀ b, b < 512 → EightBit (mxState (.ldb 0x78000 32768 1 3 1) (0x8000000000000 + 0x100000 + 0x78000) 512) (aStore 0 + 0x100000 + 0x78000 + 64 * b)) := by decide +kernel

theorem witness_matrix_run : (mxState (.run none 0xFFF00 none lastWindow 0 true) (0x8000000000000 + 0xFFF00) 4).engineChoice .mx 0 = some 0 ∧
    winRows lastWindow = 1 ∧ winRow lastWindow < 128 ∧ winCol lastWindow + winCols lastWindow ≤ 512 ∧ 0xFFF00 % 64 = 0 ∧ 0xFFF00 + 256 ≤ 2 ^ 20 ∧
    (∀ g, g < 4 → EightBit (mxState (.run none 0xFFF00 none lastWindow 0 true) (0x8000000000000 + 0xFFF00) 4) (aStore 0 + 0xFFF00 + 64 * g)) ∧
    (∀ g : Fin 4, ((mxState (.run none 0xFFF00 none lastWindow 0 true) 0 0).tile 0).macro0.modes[g] = 1) := by decide +kernel

theorem witness_matrix_out : (mxState (.out none 0xFFFC0 lastWindow true 1 0 0) 0 0).engineChoice .mx 0 = some 0 ∧ (0xFFFC0 : Nat) % 64 = 0 ∧
    sparseWf 0 (mxState (.out none 0xFFFC0 lastWindow true 1 0 0) 0 0).descs = true ∧ (mxState (.out none 0xFFFC0 lastWindow true 1 0 0) 0 0).badBlocks = [] ∧
    0xFFFC0 + winRows lastWindow * (64 * ((winCols lastWindow + 15) / 16)) ≤ 2 ^ 20 := by decide +kernel

def skState (op : CmdOp) : State := (act (engTh 0 0)).setTile 0 { base.tile 0 with skQ := [{ queuedNorm with op := op }] }

theorem witness_skink_performs : ((skState (.sumCfg 5)).tile 0).skQ = [{ queuedNorm with op := .sumCfg 5 }] ∧ (skState (.sumCfg 5)).engineChoice .sk 0 = some 0 ∧
    (skState (.shape 63 5 6 7)).engineChoice .sk 0 = some 0 ∧ (skState (.sumCfg 5)).thread? 0 = some (engTh 0 0) := by decide +kernel

/-- Skink with an add node 8 over banks 0 and 1, all banks of the command's configuration, and words of two exponents in bank 3. -/
def passState (op : CmdOp) : State :=
  base.setTile 0 { base.tile 0 with
    skQ := [{ queuedNorm with op, cfg := word 0xFFFF }], shapes := [(63, { ops := word (1 * 2 ^ 14), leafs := word 0x10, ctl := 8 + 2 * 16 + 4 * 256 })]
    banks := [(256 * 3, 0x05800000), (256 * 3 + 1, 0x07C00000)] }

theorem witness_pass : (passState (.up 0 4 63 false)).engineChoice .sk 0 = some 0 ∧ wbits (4 : Word) 2 12 = 1 ∧
    sparseWf 0 ((passState (.up 0 4 63 false)).tile 0).banks = true ∧
    (let sh := tabGet {} ((passState (.up 0 4 63 false)).tile 0).shapes 63
     sh.ops = word (1 * 2 ^ (2 * 8 - 2)) ∧ sh.ctl % 16 = 8 ∧
       ∀ b ∈ [wbits sh.leafs (4 * (2 * 8 - 16)) 4, wbits sh.leafs (4 * (2 * 8 - 15)) 4, sh.ctl / 16 % 16, sh.ctl / 256 % 16], (word 0xFFFF).getLsbD b = true) := by
  decide +kernel

theorem witness_bank_transfers : (passState (.skLoad none none 0xFFFC0 15 255 1)).engineChoice .sk 0 = some 0 ∧ (0xFFFC0 : Nat) % 64 = 0 ∧ 0xFFFC0 + 64 ≤ 2 ^ 20 ∧
    (let d := ((passState (.skLoad none none 0xFFFC0 15 255 1)).descAt (aStore 0 + 0xFFFC0)).toNat; d % 256 = 0 ∧ passFormat (word 0xFFFF) ∈ [1, 2, 16]) ∧
    1 ≤ 64 / (fmtBits 16 / 8) ∧ (passState (.skStore none none 0xFFFC0 15 240 16 16 0 0)).engineChoice .sk 0 = some 0 ∧ 240 + 16 ≤ 256 ∧
    Canonical (passState (.skStore none none 0xFFFC0 15 240 16 16 0 0)) := by decide +kernel

/-- Bank 3 has its least exponent in word 0; bank 0 has no word. -/
theorem witness_norm : (passState (.norm 3 none)).engineChoice .sk 0 = some 0 ∧ bankWord (passState (.norm 3 none)) 0 3 0 % 2 ^ 24 ≠ 0 ∧
    (∀ w', w' < 256 → bankWord (passState (.norm 3 none)) 0 3 w' % 2 ^ 24 ≠ 0 →
      bankWord (passState (.norm 3 none)) 0 3 0 / 2 ^ 24 ≤ bankWord (passState (.norm 3 none)) 0 3 w' / 2 ^ 24) ∧
    (∀ w, w < 256 → bankWord (passState (.norm 0 none)) 0 0 w % 2 ^ 24 = 0) ∧
    (let sc := bankScale (passState (.norm 3 none)) 0 3 + 32 - ((bankWord (passState (.norm 3 none)) 0 3 0 / 2 ^ 24 : Nat) : Int); -2 ^ 31 ≤ sc ∧ sc < 2 ^ 31) := by
  decide +kernel

theorem witness_sum_product : Issues (act (engTh 0x28040 0x3210)) (engTh 0x28040 0x3210) ∧ Shape.valid { ops := 0x28040, leafs := 0x3210, ctl := 0x544 } = true ∧
    skShape (engTh 0 0).skTcfg 63 = true ∧ skTree (engTh 0 0).skTcfg (7 % 4) = true ∧ skBank (engTh 0 0).skTcfg 15 = true ∧ passFormat (engTh 0 0).skTcfg = 16 ∧
    TransferFits (word (255 + 1 * 256)) ∧ TransferFits (word (256 * 256)) ∧ -2 ^ 31 ≤ (word (2 ^ 64 - 2 ^ 31)).toInt := by decide +kernel

theorem witness_sum_ring : Issues (ringState (engRing 0 10 (word 256)) 11) (engRing 0 10 (word 256)) ∧
    Standing (ringState (engRing 0 10 (word 256)) 11) (engRing 0 10 (word 256)) 3 0 1 ∧ Standing (ringState (engRing 1 10 (word 256)) 3) (engRing 1 10 (word 256)) 3 1 1 ∧
    TransferFits (word 256) ∧ transferBlocks (passFormat (engRing 1 10 0).skTcfg) 1 + 1 ≤ ((engRing 1 10 0).handle 3).slot64 := by decide +kernel

/-- A shape record of `rows` rows of 64 bytes of format `fmt` at an address of a space (R216). -/
def recordOf (base space fmt rows : Nat) : List Byte :=
  leBytes 8 (base + space * 2 ^ 56) ++ leBytes 8 (64 + fmt * 2 ^ 32) ++ leBytes 4 rows ++ leBytes 4 1 ++ leBytes 4 1 ++ leBytes 4 0 ++ leBytes 8 64 ++ zeros 24

/-- A thread whose `s1` names records at 0x300000, which this state holds. -/
def recTh : Thread := engTh 0x300000 (word 256)
def recState (bs : List Byte) : State := { act recTh with mem := base.mem.write (cellsAt 0x300000 bs) }

theorem witness_sum_record : Issues (recState (recordOf 0x1000 1 0 1)) recTh ∧ (recTh.reg 1).toNat % 64 = 0 ∧
    ((issuedIn (recState (recordOf 0x1000 1 0 1)) recTh).loadGlobal (issuedBy (recState (recordOf 0x1000 1 0 1)) recTh) 0x300000 64).2 = .ok (recordOf 0x1000 1 0 1) ∧
    (tensorOf (recordOf 0x1000 1 0 1) 0).space = 1 ∧ (tensorOf (recordOf 0x1000 1 0 1) 0).none_ = false ∧ (tensorOf (recordOf 0x1000 1 0 1) 0).check false false = none ∧
    (tensorOf (recordOf 0x1000 1 0 1) 0).fmt = 0 ∧ (tensorOf (recordOf 0x1000 1 1 1) 0).check true false = none ∧ (tensorOf (recordOf 0x1000 1 1 1) 0).fmt = 1 ∧
    ((tensorOf (recordOf 0x1000 1 1 1) 0).block? 0).isSome = true := by decide +kernel

/-- A copy of one A-store block to the last one. -/
def copyBytes : List Byte := recordOf 0xFFF80 1 0 1 ++ recordOf 0xFFFC0 1 0 1
def copyTh (comp : Word) : Thread := engTh 0x300000 comp
def copyState (comp : Word) : State := { act (copyTh comp) with mem := base.mem.write (cellsAt 0x300000 copyBytes) }

theorem witness_copy : Issues (copyState 0) (copyTh 0) ∧ CompletionOk 0 true ∧ CompletionOk (word (4 + 2 ^ 20)) false ∧
    ((issuedIn (copyState 0) (copyTh 0)).loadGlobal (issuedBy (copyState 0) (copyTh 0)) 0x300000 64).2 = .ok (recordOf 0xFFF80 1 0 1) ∧
    (((issuedIn (copyState 0) (copyTh 0)).loadGlobal (issuedBy (copyState 0) (copyTh 0)) 0x300000 64).1.loadGlobal (issuedBy (copyState 0) (copyTh 0)) 0x300040 64).2 =
      .ok (recordOf 0xFFFC0 1 0 1) ∧
    (tensorOf (recordOf 0xFFF80 1 0 1) 0).check false true = none ∧ (tensorOf (recordOf 0xFFFC0 1 0 1) 0).check true true = none ∧
    (tensorOf (recordOf 0xFFF80 1 0 1) 0).bytes = (tensorOf (recordOf 0xFFFC0 1 0 1) 0).bytes ∧ (tensorOf (recordOf 0xFFFC0 1 0 1) 0).fmt = 0 ∧
    partialOverlap (tensorOf (recordOf 0xFFF80 1 0 1) 0) (tensorOf (recordOf 0xFFFC0 1 0 1) 0) = false := by decide +kernel

def cpState (op : CmdOp) : State := (act (engTh 0 0)).setTile 0 { base.tile 0 with cpQ := [{ queuedNorm with op := op }] }
def oneBlock : CmdOp := .copy (recordOf 0x1000 1 0 1) (recordOf 0xFFFC0 1 0 1) 0 0 none 0
def oneExpect : CmdOp := .expect 3 64 (word (4 + 2 ^ 20)) 1000000

theorem witness_copy_performs : (cpState oneBlock).engineChoice .cp 0 = some 0 ∧ ((cpState oneBlock).tile 0).cpQ = [{ queuedNorm with op := oneBlock }] ∧
    BlockAt (tensorOf (recordOf 0x1000 1 0 1) 0) 0x1000 ∧ BlockAt (tensorOf (recordOf 0xFFFC0 1 0 1) 0) 0xFFFC0 ∧ (cpState oneBlock).badBlocks = [] ∧
    (cpState oneBlock).mem.wf = true ∧ (cpState oneExpect).engineChoice .cp 0 = some 0 ∧ (cpState oneExpect).thread? 0 = some (engTh 0 0) ∧
    ((engTh 0 0).expect 3).armed = false := by decide +kernel

def expecting : Thread := th.setExpect 3 { armed := true, remaining := 64, name := { thread := 0, pc := 0x40, seq := 2 } }

theorem witness_copy_short : (act expecting).thread? 0 = some expecting ∧ expecting.state ≠ .stopped ∧ (expecting.expect 3).armed = true ∧
    (expecting.expect 3).watchdog = 0 ∧ (expecting.expect 3).inRegion = false ∧ (expecting.expect 3).name.thread = 0 ∧ expecting.pending.length < 16 ∧
    ((act expecting).tile 0).cpQ = [] := by decide +kernel

/-! #### Elements, page units, ports, generators -/

/-- Bytes at ascending offsets from an offset on, with zeros between. -/
def placed : Nat → List (Nat × List Byte) → List Byte
  | _, [] => []
  | n, (o, bs) :: r => zeros (o - n) ++ bs ++ placed (o + bs.length) r

/-- An element word of an operation with consumers `a` and `b`. -/
def eword (op a b rest : Nat) : List Byte := leBytes 4 (op * 2 ^ 24 + a * 2 ^ 15 + b * 2 ^ 6 + rest)

/-- A page of thread 0, resident in tile 0. -/
def pageOf (im : List (Nat × List Byte)) (st : RegionState) : Page :=
  { id := 7, part := 0, inst := 1, ordinal := 0, index := 0, region := some 0, image := placed 0 im, st := st }

/-- The state in which slot `slot` of the page has its turn, thread 0 with a firing open. -/
def firing : Thread := { th with inst := 1, region := regionTh.region }
def pageState (p : Page) (slot : Nat) : State :=
  { act firing with pages := [(7, p)], curPage := 7, curSlot := slot, dev := { base.dev with elapsed := 99 } }

def tk (v : Half) : Token := { payload := v }
def qs (l : List (Nat × Nat × List Token)) : Tab Queue := l.foldl (fun t e => tabSet t (queueKey e.1 e.2.1) { toks := e.2.2 }) []

/-- `iadd` of the last slot that adds `q0` and `k1` and sends to slot 62's `q2`, which holds 11 tokens. -/
def addPage : Page := pageOf [(0x10 + 4 * 63, eword 0x01 250 0x1FF 0x20), (0x110 + 16 * 63 + 4, leBytes 4 9)]
  { queues := qs [(62, 2, List.replicate 11 (tk 0)), (63, 0, [tk 5])] }
def nullPage : Page := pageOf [(0x10 + 4 * 63, eword 0x01 250 0x1FF 0x20)] { queues := qs [(63, 0, [{ n := true, e := 3 }])] }

theorem witness_element : ElementReady (pageState addPage 63) addPage (.iadd 250 0x1FF 2 0 0) 250 0x1FF ∧ Operands addPage 63 2 [tk 5, tk 9] ∧
    (pageState addPage 63).roomFor addPage 63 [(250, 1, [tk 14]), (0x1FF, 1, [tk 14])] = some true ∧ (∀ k ∈ [tk 5, tk 9], k.n = false) ∧
    Operands nullPage 63 2 [{ n := true, e := 3 }, tk 0] ∧ ElementReady (pageState nullPage 63) nullPage (.iadd 250 0x1FF 2 0 0) 250 0x1FF := by decide +kernel

/-- Least and greatest codes that a value can lie above, and codes of NaNs and of finite values (BF16, F32). -/
theorem witness_rounding : (0 < 255 * 2 ^ 7 ∧ (magnitude 7 0).1 * 2 ^ 0 ≤ 1 ∧ 1 < ((magnitude 7 0).1 + 1) * 2 ^ 1 ∧ (magnitude 7 0).2 = -133) ∧
    (254 * 2 ^ 23 + (2 ^ 23 - 1) < 255 * 2 ^ 23 ∧ magnitude 23 (255 * 2 ^ 23 - 1) = (2 ^ 24 - 1, 104)) ∧ (2 : Nat) ^ (128 - min (128 : Int) 128).toNat ≤ 1 * 2 ^ (128 - min (128 : Int) 128).toNat ∧
    (0x7FC1 / 2 ^ 7 % 256 = 255 ∧ 0x7FC1 % 2 ^ 7 ≠ 0) ∧ decodeIeee 23 0x80000001 = .fin true 1 (-149) ∧ decodeIeee 7 0 = .fin false 0 (-133) ∧
    0x80000001 / 2 ^ 23 % 256 ≠ 255 ∧ (∀ x ∈ ([(3, 5), (0, -9), (-2, 4)] : List (Int × Int)), x.1 ≠ 0 → 4 ≤ x.2) := by decide +kernel

/-- Operands from the queues, three of them with the third in `k2`, and for a `merge` of `k0`. -/
def threePage : Page := pageOf [(0x110 + 8, leBytes 4 4)] { queues := qs [(0, 0, [{ n := true }]), (0, 1, [{ payload := 2, e := 1 }]), (0, 2, [tk 3])] }

theorem witness_element_operands : Operands threePage 0 0 [{ n := true }, { payload := 2, e := 1 }, tk 3] ∧ Operands threePage 0 3 [{ n := true }, tk 3, tk 4] ∧
    Operands threePage 0 1 [{ n := true }] ∧ ElementReady (pageState threePage 0) threePage (.merge 4 8 0 0) 4 8 ∧
    (pageState threePage 0).roomFor threePage 0 [(4, 1, [tk 2]), (8, 1, [tk 2])] = some true := by decide +kernel

/-- A page of every kind of waiting event: `merge` in slot 0, `dup` in 1, both toward slot 2's `q0`, at whose second producer the turn is. -/
def eventPage : Page := pageOf [(0x10, eword 0x42 8 9 0), (0x14, eword 0x45 8 0x1FF 0)]
  { queues := tabSet (qs [(2, 0, [tk 1])]) (queueKey 2 0) { toks := [tk 1], turn := 1 }
    elems := [(0, { second := some (tk 5) }), (1, { dupLeft := 1, dupTok := { payload := 6, e := 3 } })]
    flight := [⟨0, .queue 2 1, tk 4⟩, ⟨0, .queue 2 1, tk 5⟩] }
def heldPage : Page := { eventPage with st := { eventPage.st with held := [⟨1, .queue 2 0, tk 8⟩] } }

theorem witness_page_events : (pageState eventPage 0).page? 7 = some eventPage ∧ eventPage.region.isSome = true ∧ (eventPage.elem 0).second = some (tk 5) ∧
    (eventPage.elem 1).dupLeft = 0 + 1 ∧ eventPage.st.held = [] ∧
    (pageState eventPage 0).roomFor eventPage 1 ((consumersOf eventPage.image 1).map fun c => (c, 1, [{ payload := 6, e := 3 }])) = some true ∧
    (eventPage.elem 1).dupTok = { payload := 6, e := 3 } ∧ eventPage.st.flight.head? = some ⟨0, .queue 2 1, tk 4⟩ ∧ eventPage.st.marked = [] ∧
    heldPage.st.held = [⟨1, .queue 2 0, tk 8⟩] ∧ (producersOf heldPage.image 2 0)[(heldPage.queue 2 0).turn]? = some 1 := by decide +kernel

/-- The RSU of row 7 scans the sums of columns 0, 3 and 7 to slot 0's `q0`. -/
def rsuPage : Page := pageOf [(6, [0x80]), (0x110 + 16 * 63 + 12, leBytes 4 (0x08 + 2 ^ 7 + 2 ^ 17 + 2 ^ 20 + 2 ^ 24))]
  { rsus := [(7, { inputs := [(0, [tk 1, tk 9]), (3, [{ payload := 0, n := true, e := 2 }]), (7, [tk 0xFFFFFFFF])] })] }
def scanPage : Page := { rsuPage with st := { rsuPage.st with rsus := [(7, { emit := [tk 4], scan := true })] } }

theorem witness_rsu : (pageState rsuPage 0).page? 7 = some rsuPage ∧ (rsuPage.image.getD 6 0).toNat.testBit 7 = true ∧ (rsuPage.rsu 7).emit = [] ∧ rsuPage.st.held = [] ∧
    ((List.range 8).filter fun c => (rsuWord rsuPage.image 7).testBit (17 + c)) = [0, 3, 7] ∧ rsuWord rsuPage.image 7 / 2 ^ 8 % 2 ^ 9 = 0 ∧
    ([0, 3, 7].map fun c => (tabGet [] (rsuPage.rsu 7).inputs c).head?) = [tk 1, { payload := 0, n := true, e := 2 }, tk 0xFFFFFFFF].map some ∧
    (pageState rsuPage 0).roomFor rsuPage 63 [(0, 1, [tk 1])] = some true ∧
    portsNamed 0 [0] = [] ∧ (scanPage.rsu 7).emit = [tk 4] ∧ scanPage.st.held = [] ∧ (pageState scanPage 0).roomFor scanPage 63 [(0, 1, [tk 4])] = some true := by decide +kernel
/-- Port 15 is an output through handle 3 of two tokens a slot, port 0 an input through handle 3; slot 0 holds `rout 15` and slot 9 `rin 0`. -/
def streamPage (toks : List Token) : Page := pageOf
  [(0x10, eword 0x55 0 0 15), (0x34, eword 0x54 0x1FF 44 0), (0xB10, leBytes 4 (3 * 2 ^ 2 + 2 ^ 13 + 6 * 2 ^ 8) ++ leBytes 4 3), (0xC00, leBytes 4 (2 + 3 * 2 ^ 2) ++ leBytes 4 2)]
  { queues := qs [(0, 0, toks)] }
def streamTh (role : Nat) : Thread := { ringTh role 1 10 0 with inst := 1, region := regionTh.region }

/-- The bytes of a slot of two tokens, and the counter of the far end. -/
def slotBytes : List (Nat × Byte) := cellsAt 0x8000000004100 (leBytes 4 0x11 ++ leBytes 4 0x22) ++ cellsAt 0x8000000004140 (leBytes 4 (2 + 3 * 2 ^ 13 + 6 * 2 ^ 15))
def streamState (role remote slot : Nat) (p : Page) : State :=
  { act (streamTh role) with pages := [(7, p)], curPage := 7, curSlot := slot, dev := { base.dev with elapsed := 99 }
                             mem := (base.mem.write (counters remote 10)).write slotBytes }

/-- The queue that the `rin` sends to is full. -/
def fullQueue : Page := { streamPage [] with st := { (streamPage []).st with queues := qs [(11, 0, List.replicate 12 (tk 0))] } }

/-- The port with its slot open at the last word. -/
def openPage : Page := (streamPage []).setPort 0 { isOpen := true, slot := 10, cursor := 1, trailer := 2 + 3 * 2 ^ 13 + 6 * 2 ^ 15 }

theorem witness_rin : (streamState 0 11 9 openPage).page? 7 = some openPage ∧ FiringOpen (streamState 0 11 9 openPage) openPage (streamTh 0) ∧
    (streamTh 0).wait = none ∧ wellFormed (.rin 0x1FF 44 0) = true ∧ openPage.busy 9 [0x1FF, 44] = false ∧ (openPage.port 0).isOpen = true ∧
    portTchk openPage.image 0 = true ∧ (2 + 3 * 2 ^ 13 + 6 * 2 ^ 15) / 2 ^ 15 % 32 = portTag openPage.image 0 ∧
    (streamState 0 11 9 openPage).roomFor openPage 9 [(0x1FF, 1, [{ payload := 0x22, e := 3, t := 6 }]), (44, 1, [{ payload := 0x22, e := 3, t := 6 }])] = some true ∧
    FiringOpen (streamState 0 11 9 (streamPage [])) (streamPage []) (streamTh 0) ∧ ((streamPage []).port 0).isOpen = false ∧
    (streamState 0 11 9 (streamPage [])).availTo? 0 ((streamTh 0).handle 3) = some 1 ∧ portBack (streamPage []).image 0 = false ∧ (streamState 0 11 9 (streamPage [])).takeOk (streamTh 0) 3 1 = true ∧
    ((streamTh 0).handle 3).slotPa 0 10 = 0x8000000004100 ∧ ((streamTh 0).handle 3).slotB = 128 ∧ portTps (streamPage []).image 0 = 3 ∧
    leNat (((streamState 0 11 9 (streamPage [])).readBytes 0x8000000004140 64).take 4) = 2 + 3 * 2 ^ 13 + 6 * 2 ^ 15 ∧
    (∀ x ∈ ((streamState 0 11 9 (streamPage [])).readBytes 0x8000000004140 64).drop 4, x = 0) := by decide +kernel

/-- The slot at Head as a marker's, and with one token more than TPS. -/
def headState (trailer : Nat) : State :=
  { streamState 0 11 9 (streamPage []) with mem := (base.mem.write (counters 11 10)).write (cellsAt 0x8000000004140 (leBytes 4 trailer)) }

theorem witness_rin_opens : (headState (2 ^ 21)).bad 0x8000000004140 64 = false ∧ leNat (((headState (2 ^ 21)).readBytes 0x8000000004140 64).take 4) = 2 ^ 21 ∧
    (∀ x ∈ ((headState (2 ^ 21)).readBytes 0x8000000004140 64).drop 4, x = 0) ∧ (headState (2 ^ 21)).bad 0x8000000004100 4 = false ∧ (headState (2 ^ 21)).insts = [] ∧
    ({ headState (2 ^ 21) with threads := tabSet (headState (2 ^ 21)).threads 0 ((streamTh 0).takeFor 3 false) } : State).roomFor
      ((streamPage []).setPort 0 { isOpen := true, slot := 10, trailer := 2 ^ 21 }) 9 [(0x1FF, 1, [{ m := true }]), (44, 1, [{ m := true }])] = some true ∧
    (headState 4).takeOk (streamTh 0) 3 1 = true ∧ leNat (((headState 4).readBytes 0x8000000004140 64).take 4) = 4 ∧ portTps (streamPage []).image 0 < 4 ∧
    (headState 4).availTo? 0 ((streamTh 0).handle 3) = some 1 ∧
    ({ headState 4 with threads := tabSet (headState 4).threads 0 ((streamTh 0).takeFor 3 true) } : State).roomFor
      { fullQueue with st := { fullQueue.st with ports := [(0, { isOpen := true, slot := 10, trailer := 1 })] } } 9
      [(0x1FF, 1, [{ payload := 0x11 }]), (44, 1, [{ payload := 0x11 }])] = some false := by decide +kernel

/-- The same `rin` of a back edge, in a marker firing. -/
def backPage : Page :=
  { pageOf [(0x34, eword 0x54 0x1FF 44 0), (0xB10, leBytes 4 (3 * 2 ^ 2 + 2 ^ 14) ++ leBytes 4 3)] {} with st := { aligning := true, cutNum := 5 } }

theorem witness_rin_back : (streamState 0 11 9 backPage).page? 7 = some backPage ∧ (streamState 0 11 9 backPage).pageThread backPage = some (streamTh 0) ∧
    backPage.busy 9 [0x1FF, 44] = false ∧ portBack backPage.image 0 = true ∧ (9 : Nat) ∉ backPage.st.marked ∧
    (streamState 0 11 9 backPage).roomFor backPage 9 [(0x1FF, 1, [{ payload := 5, m := true }]), (44, 1, [{ payload := 5, m := true }])] = some true := by decide +kernel

theorem witness_output_port : FiringOpen (streamState 1 3 0 (streamPage [tk 8])) (streamPage [tk 8]) (streamTh 1) ∧ (streamState 1 3 0 (streamPage [tk 8])).mem.wf = true ∧
    HeadIs (streamPage [tk 8]) 0 0 (tk 8) ∧ Accepts (streamState 1 3 0 (streamPage [tk 8])) (streamPage [tk 8]) (streamTh 1) 15 (tk 8) ∧
    ((streamPage [tk 8]).port 15).held = [] ∧
    wellFormed (.rout 15) = true ∧ wellFormed (.rep 0x1FF 44 15) = true ∧ (streamPage [tk 8]).busy 0 [0x1FF, 0x1FF] = false ∧
    (streamState 1 3 0 (streamPage [tk 8])).roomFor (streamPage [tk 8]) 0 [(316, 1, [tk 8]), (0x1FF, 1, [tk 8]), (44, 1, [tk 8])] = some true := by
  refine ⟨⟨by decide +kernel, by decide +kernel, by decide +kernel, ⟨_, rfl, by decide +kernel⟩, by decide +kernel, by decide +kernel⟩, by decide +kernel, by decide +kernel,
    ⟨by decide +kernel, by decide +kernel, fun _ => ⟨by decide +kernel, by decide +kernel, 1, by decide +kernel⟩⟩, by decide +kernel⟩

/-- A token that reaches the port, whose slot 10 is open after one token: the token fits it, or has another tag. -/
def flightPage (k : Token) : Page :=
  { (streamPage []).setPort 15 { isOpen := true, slot := 10, cursor := 1, last := tk 7, count := 1 } with
    st := { ((streamPage []).setPort 15 { isOpen := true, slot := 10, cursor := 1, last := tk 7, count := 1 }).st with flight := [⟨0, .port 15, k⟩] } }
def heldPort (k : Token) : Page := (streamPage []).setPort 15 { held := [k, tk 9] }
def otherTag : Token := { tk 8 with t := 4 }
def aMarker : Token := { tk 1 with m := true }

/-- Slot 10 is taken: of four free slots three are left for the one that closes. -/
def flightTh : Thread := { streamTh 1 with handles := ((streamTh 1).setHandle 3 { (streamTh 1).handle 3 with p := 1 }).handles }
def flightState (k : Token) : State := { streamState 1 4 0 (flightPage k) with threads := [(0, flightTh)] }

theorem witness_port_events : (flightState (tk 8)).page? 7 = some (flightPage (tk 8)) ∧ fitsOpen (flightPage (tk 8)) 15 (tk 8) = true ∧
    fitsOpen (flightPage otherTag) 15 otherTag = false ∧ Accepts (flightState (tk 8)) (flightPage (tk 8)) flightTh 15 (tk 8) ∧
    Accepts (flightState otherTag) (flightPage otherTag) flightTh 15 otherTag ∧ FiringOpen (flightState otherTag) (flightPage otherTag) flightTh ∧
    (flightPage otherTag).st.flight = [⟨0, .port 15, otherTag⟩] ∧ ((flightPage otherTag).port 15).held = [] ∧
    (heldPort (tk 8)).port 15 = { held := [tk 8, tk 9] } ∧ Accepts (streamState 1 3 0 (heldPort (tk 8))) (heldPort (tk 8)) (streamTh 1) 15 (tk 8) := by
  refine ⟨by decide +kernel, by decide +kernel, by decide +kernel, ⟨by decide +kernel, by decide +kernel, fun h => absurd h (by decide +kernel)⟩,
    ⟨by decide +kernel, by decide +kernel, fun _ => ⟨by decide +kernel, by decide +kernel, 1, by decide +kernel⟩⟩,
    ⟨by decide +kernel, by decide +kernel, by decide +kernel, ⟨_, rfl, by decide +kernel⟩, by decide +kernel, by decide +kernel⟩, by decide +kernel, by decide +kernel,
    by decide +kernel, by decide +kernel, by decide +kernel, fun _ => ⟨by decide +kernel, by decide +kernel, 1, by decide +kernel⟩⟩

theorem witness_port_markers : PortActs (flightState aMarker) (flightPage aMarker) flightTh ∧ flightTh.wait = none ∧
    HasSlot (flightState aMarker) (flightPage aMarker) flightTh 15 ∧ (flightPage aMarker).st.flight = [⟨0, .port 15, aMarker⟩] ∧ aMarker.m = true ∧
    HasSlot (streamState 1 3 0 (heldPort aMarker)) (heldPort aMarker) (streamTh 1) 15 ∧ ((heldPort aMarker).port 15).held = [aMarker, tk 9] :=
  ⟨⟨by decide +kernel, by decide +kernel, by decide +kernel, .inr ⟨_, rfl, by decide +kernel⟩⟩, by decide +kernel, ⟨by decide +kernel, 1, by decide +kernel⟩,
    by decide +kernel, by decide +kernel, ⟨by decide +kernel, 1, by decide +kernel⟩, by decide +kernel⟩

/-- A generator in slot 4 with descriptor 2: accesses of 2^`size` bytes of the A-store from 0x40 on, four tokens a row, two rows. -/
def agPage (op size : Nat) (g : Ag) (toks : List Token) : Page := pageOf
  [(0x20, eword op 0x1FF 0x1FF 2), (0x150, leBytes 4 (88 + 0x1FF * 2 ^ 9)),
   (0x790, leBytes 8 (0x40 + 2 ^ 56) ++ leBytes 8 (0x1000 + size * 2 ^ 46) ++ leBytes 4 4 ++ leBytes 4 2 ++ leBytes 4 1 ++ leBytes 4 1 ++ leBytes 8 8 ++ leBytes 8 0x100)]
  { queues := qs [(4, 0, toks), (4, 1, toks)], ags := [(4, g)] }

/-- The iteration before the last. -/
def running_ : Ag := { busy := true, i0 := 2, i1 := 1 }

theorem witness_generator_starts : GeneratorReady (pageState (agPage 0x50 3 {} [tk 8]) 4) (agPage 0x50 3 {} [tk 8]) (.agl 2) ∧
    HeadIs (agPage 0x50 3 {} [tk 8]) 4 0 (tk 8) ∧ GeneratorReady (pageState (agPage 0x51 3 {} [tk 8]) 4) (agPage 0x51 3 {} [tk 8]) (.ags 2) ∧
    HeadIs (agPage 0x51 3 {} [tk 8]) 4 1 (tk 8) ∧ GeneratorReady (pageState (agPage 0x52 3 {} [tk 8]) 4) (agPage 0x52 3 {} [tk 8]) (.agc 2) ∧
    ((agPage 0x50 3 {} []).ag 4).busy = false := by decide +kernel

def lastToken : Ag := { busy := true, pos := 1, toks := [tk 7] }

theorem witness_generator_moves : GeneratorReady (pageState (agPage 0x50 3 lastToken []) 4) (agPage 0x50 3 lastToken []) (.agl 2) ∧
    ((agPage 0x50 3 lastToken []).ag 4) = lastToken ∧
    (pageState (agPage 0x50 3 lastToken []) 4).roomFor { agPage 0x50 3 lastToken [] with lastFire := 99 } 4 [(88, 1, [tk 7]), (0x1FF, 1, [tk 7])] = some true ∧
    (elemConst (agPage 0x50 3 lastToken []).image 4 0).toNat = 88 + 0x1FF * 2 ^ 9 ∧
    GeneratorReady (pageState (agPage 0x51 3 running_ [tk 8]) 4) (agPage 0x51 3 running_ [tk 8]) (.ags 2) ∧
    running_.toks.length < agTokens (agSize (agPage 0x51 3 running_ [tk 8]).image (elemWord (agPage 0x51 3 running_ [tk 8]).image 4 % 16)) := by decide +kernel

def fullSet : Ag := { running_ with toks := [tk 1, tk 2] }

/-- A copy by descriptor 2 to descriptor 3, which stands 0x40 lower. -/
def copyPage (g : Ag) : Page := pageOf
  [(0x20, eword 0x52 0x1FF 0x1FF 2), (0x150, leBytes 4 3),
   (0x790, leBytes 8 (0x40 + 2 ^ 56) ++ leBytes 8 (0x1000 + 3 * 2 ^ 46) ++ leBytes 4 4 ++ leBytes 4 2 ++ leBytes 4 1 ++ leBytes 4 1 ++ leBytes 8 8 ++ leBytes 8 0x100 ++ zeros 16 ++
     leBytes 8 (2 ^ 56 + 2 ^ 59) ++ leBytes 8 (0x1000 + 3 * 2 ^ 46) ++ leBytes 4 4 ++ leBytes 4 2 ++ leBytes 4 1 ++ leBytes 4 1 ++ leBytes 8 8 ++ leBytes 8 0x100)]
  { ags := [(4, g)] }

theorem witness_generator_access : (pageState (agPage 0x50 3 running_ []) 4).firingThread (agPage 0x50 3 running_ []) = some firing ∧
    agIter (agPage 0x50 3 running_ []).image 2 running_ = 6 ∧ agTotal (agPage 0x50 3 running_ []).image 2 = 8 ∧ agFmt (agPage 0x50 3 running_ []).image 2 ≠ 14 ∧
    (pageState (agPage 0x50 3 running_ []) 4).roomFor (agPage 0x50 3 running_ []) 4 [(88, 1, [{}]), (0x1FF, 1, [{}])] = some true ∧
    ((pageState (agPage 0x50 3 running_ []) 4).agCheck (agPage 0x50 3 running_ []) firing 2 6 0 .read).2 = .ok 0x8000000000150 ∧
    ((pageState (agPage 0x51 3 fullSet []) 4).agCheck (agPage 0x51 3 fullSet []) firing 2 6 0 .write).2 = .ok 0x8000000000150 ∧
    fullSet.toks.length = agTokens (agSize (agPage 0x51 3 fullSet []).image 2) ∧ agSize (agPage 0x51 3 fullSet []).image 2 < 6 ∧
    elemWord (agPage 0x51 3 fullSet []).image 4 / 2 ^ 24 = 0x51 ∧
    ((pageState (copyPage running_) 4).agCheck (copyPage running_) firing 2 6 0 .read).2 = .ok 0x8000000000150 ∧
    (((pageState (copyPage running_) 4).agCheck (copyPage running_) firing 2 6 0 .read).1.agCheck (copyPage running_) firing 3 6 0 .write).2 =
      .ok 0x8000000000110 := by decide +kernel

/-- `iadd` in slot 9 whose two operand queues have a marker at their heads. -/
def markerPage : Page := pageOf [(0x34, eword 0x01 40 0x1FF 0)] { queues := qs [(9, 0, [{ payload := 5, m := true }, tk 1]), (9, 1, [{ payload := 6, m := true }])] }

theorem witness_markers : (pageState markerPage 0).page? 7 = some markerPage ∧ elemWord markerPage.image 9 / 2 ^ 24 ≠ 0x54 ∧ elemWord markerPage.image 9 ≠ 0 ∧
    backOf markerPage.image 9 = [] ∧ forwardOf markerPage.image 9 = [0, 1] ∧ (markerPage.queue 9 0).toks.head? = some { payload := 5, m := true } ∧
    (markerPage.queue 9 1).toks.head? = some { payload := 6, m := true } ∧ markerPage.busy 9 (outsOf markerPage.image 9) = false ∧ markerPage.st.flight = [] ∧ markerPage.st.aligning = false ∧
    (pageState markerPage 0).roomFor markerPage 9 ((outsOf markerPage.image 9).map fun c => (c, 1, [{ payload := 5, m := true }])) = some true := by decide +kernel
/-! #### Subscriptions and pages -/

/-- A running instance 1 of partition 0 with one actor, whose pages lie at 0x310000. -/
def inst1 : Inst := { part := 0, num := 1, level := 1, actors := [{ regions := 1 }], pagesVa := 0x310000, npage := 1, nmode := 2, rmin := 1 }

/-- The subscription record of three rows of 64 bytes at 0x340000, one to a slot. -/
def subRecord (dir : Nat) : List Byte := leBytes 8 (dir + 2 ^ 4) ++ zeros 56 ++ recordOf 0x340000 0 0 3

def msTh (role : Nat) (n : Word) : Thread := (((ringTh role 1 10 0).setReg 1 0x300000).setReg 2 n)
def msState (role : Nat) (n : Word) : State := { act (msTh role n) with mem := base.mem.write (cellsAt 0x300000 (subRecord role)) }

/-- What the thread of a state loads at an address. -/
def loads (s : State) (t : Thread) (va : Nat) : Except Miss (List Byte) := ((issuedIn s t).loadGlobal (issuedBy s t) va 64).2
def loadsNext (s : State) (t : Thread) (va : Nat) : Except Miss (List Byte) :=
  (((issuedIn s t).loadGlobal (issuedBy s t) va 64).1.loadGlobal (issuedBy s t) (va + 64) 64).2

theorem witness_subscribe : Issues (msState 0 0) (msTh 0 0) ∧ ((msTh 0 0).handle 3).bound = true ∧ ((msTh 0 0).handle 3).peerKind = 1 ∧
    ((msTh 0 0).reg 1).toNat % 64 = 0 ∧ loads (msState 0 0) (msTh 0 0) 0x300000 = .ok ((subRecord 0).take 64) ∧
    loadsNext (msState 0 0) (msTh 0 0) 0x300000 = .ok ((subRecord 0).drop 64) ∧ (msState 0 0).subOn 0 ((msTh 0 0).handle 3) = none ∧
    ((msTh 0 0).handle 3).role = subDir (subRecord 0) ∧ BlockReads (msState 0 0) 0 ((msTh 0 0).handle 3) ∧ subDests (subRecord 0) = 0 ∧
    (((issuedIn (msState 0 0) (msTh 0 0)).loadGlobal (issuedBy (msState 0 0) (msTh 0 0)) 0x300000 64).1.loadGlobal (issuedBy (msState 0 0) (msTh 0 0)) 0x300040 64).1.subBad
      ((msTh 0 0).handle 3) (subRecord 0) = none ∧ (subTensor (subRecord 0)).none_ = false ∧ (subTensor (subRecord 0)).rows = 3 := by decide +kernel

theorem witness_pull : Issues (msState 1 (2 ^ 32)) (msTh 1 (2 ^ 32)) ∧ loads (msState 1 (2 ^ 32)) (msTh 1 (2 ^ 32)) 0x300000 = .ok ((subRecord 1).take 64) ∧
    loadsNext (msState 1 (2 ^ 32)) (msTh 1 (2 ^ 32)) 0x300000 = .ok ((subRecord 1).drop 64) ∧ ((msTh 1 (2 ^ 32)).handle 3).role = subDir (subRecord 1) ∧
    (((issuedIn (msState 1 1) (msTh 1 1)).loadGlobal (issuedBy (msState 1 1) (msTh 1 1)) 0x300000 64).1.loadGlobal (issuedBy (msState 1 1) (msTh 1 1)) 0x300040 64).1.subBad
      ((msTh 1 1).handle 3) (subRecord 1) = none ∧ ((msTh 1 (2 ^ 32)).reg 2).toNat = 2 ^ 32 ∧ (0xFFFFC : Half).toNat < 2 ^ 20 ∧ (0xFFFFC : Half).toNat % 4 = 0 := by decide +kernel

/-- A subscription of thread 0 on its handle 3, in the middle of its tensor, with nine slots moved. -/
def subOf (role : Nat) : Sub :=
  { id := 5, name := { inst := 1, ordinal := 0, actor := 0, acct := 0 }, mse := 0, thread := some 0, level := 1, handle := 3, desc := rigHandle role 1 0 0 0
    tile := 0, record := subRecord role, row := 1, posted := 9 }

/-- A state that holds it, with the tile end's counters and the trailer of the slot it takes next. -/
def subState (role trailer : Nat) : State :=
  { msState role 0 with
    subs := [subOf role], insts := [inst1]
    mem := ((msState role 0).mem.write (cellsAt 0x8000000001008 (leBytes 8 10) ++ cellsAt 0x80000000040C0 (leBytes 4 trailer))).write
      (cellsAt 0x340040 [1, 2, 3]) }

theorem witness_stop : (subState 0 0).fenceOk 0 0 = true ∧ (msState 0 0).subOn 0 ((msTh 0 0).handle 3) = none ∧
    (subState 0 0).subOn 0 ((msTh 0 0).handle 3) = some (subOf 0) ∧ (subOf 0).pulls = false ∧ (subOf 0).actor = 0xFFFF ∧ (subOf 0).stopping = false ∧
    (subState 1 0).subOn 0 ((msTh 1 0).handle 3) = some (subOf 1) ∧ (subOf 1).pulls = true ∧ (subOf 1).finished = false ∧
    (subOf 1).posted < (subState 1 0).readNat (aStore 0 + (subOf 1).desc.lrcb + 8) 8 := by decide +kernel

theorem witness_push : Served (subState 0 0) 5 (subOf 0) inst1 ∧ (subState 0 0).subBlockBad (subOf 0) = none ∧ (subOf 0).pulls = false ∧ subDests (subOf 0).record = 0 ∧ 1 + subRps (subOf 0).record < 3 ∧
    ((((subState 0 0).mseAgent (subOf 0)).setInst inst1).gatherSlot (subOf 0).agent (subTensor (subOf 0).record) 64 0 64 64).2 = .ok ([1, 2, 3] ++ zeros 61, [(0, 0)]) ∧
    (((((subState 0 0).mseAgent (subOf 0)).setInst inst1).gatherSlot (subOf 0).agent (subTensor (subOf 0).record) 64 0 64 64).1.part 0).tiles.contains 0 = true := by decide +kernel

/-- A null slot, and one of sixteen tokens. -/
theorem witness_pull_slot : Served (subState 1 (1 + 2 ^ 20)) 5 (subOf 1) inst1 ∧ (subOf 1).pulls = true ∧ (subState 1 (1 + 2 ^ 20)).sinkTrailer (subOf 1) = 1 + 2 ^ 20 ∧
    (subState 1 (1 + 2 ^ 20)).bad ((subOf 1).desc.slotPa 0 9 + 64) 64 = false ∧
    Served (subState 1 16) 5 (subOf 1) inst1 ∧ (subState 1 16).subBlockBad (subOf 1) = none ∧ (subState 1 16).sinkTrailer (subOf 1) = 16 ∧ 4 * 16 ≤ subRps (subOf 1).record * 64 ∧
    (moveBytes (subOf 1).agent 0 0x39 { base := (subOf 1).desc.slotOffset 9, space := 1, rowb := 64, fmt := 0, e1 := 1, e2 := 1, e3 := 1
                                        s1 := 0, s2 := 0, s3 := 0, clean := true } (subTensor (subRecord 1)) 0 64 64 0 64
      ((((subState 1 16).mseAgent (subOf 1)).setInst inst1).chargeEngine (subOf 1).agent ((subOf 1).desc.slotPa 0 9 + 64) 64)).2 = (64, none) := by decide +kernel

/-- A page without an element, waiting for a region or resident in one. -/
def waiting_ (id : Nat) (region : Option Nat) : Page := { id, part := 0, inst := 1, ordinal := 0, index := 0, wanted := region.isNone, region }
def pageWaits (pages : Tab Page) : State := { act { th with inst := 1 } with mem := base.mem.write [(0x310000, 1)], insts := [inst1], pages }

/-- Zeros at its end change no field of a page. -/
theorem leNat_zeros (n : Nat) : leNat (zeros n) = 0 := by
  induction n with
  | zero => rfl
  | succ n ih => simp only [zeros, List.replicate_succ, leNat] at *; rw [ih]; rfl

theorem leNat_append_zeros (l : List Byte) (n : Nat) : leNat (l ++ zeros n) = leNat l := by
  induction l with
  | nil => exact leNat_zeros n
  | cons b r ih => simp [leNat, ih]

theorem field_padded (l : List Byte) (k off n : Nat) : field (l ++ zeros k) off n = field l off n := by
  simp only [field, List.drop_append, List.take_append]
  simp [zeros, List.drop_replicate, List.take_replicate]
  exact leNat_append_zeros _ _

/-- A field of an image with zeros between two parts. -/
theorem field_gap (a b : List Byte) (g off n : Nat) : field (a ++ zeros g ++ b) off n =
    leNat ((a.drop off).take n ++ List.replicate (min (n - (a.length - off)) (g - (off - a.length))) 0 ++
      (b.drop (off - (a.length + g))).take (n - (a.length - off + (g - (off - a.length))))) := by
  simp [field, zeros, List.drop_append, List.take_append, List.drop_replicate, List.take_replicate, Nat.sub_sub]

theorem pageBad_padded (l : List Byte) (k w : Nat) : pageBad? (l ++ zeros k) w = pageBad? l w := by
  simp only [pageBad?, pageChecks, pgIcount, pgKind, pgPorts, pgAgcount, pgInit, pgMon, pgRnd, pgNtok, pgRsuen, elementOk, agConstOk, rsuOk, initialOk, descriptorChecks, portChecks,
    slotUsed, Machine.consumersOk, Machine.consumerOk, elemWord, elemConst, portWord, portDir, portKind, portTag, portTchk, portBack, portSlot, portTps, portWidth, pgPhases, rsuWord, agDescs, slotOp, portServers, consumersOf,
    agBase, agSpace, agDir, agSlot, agSize, agWset, agFmt, agCount, agStride, agTotal, agField, field_padded]
  rfl

/-- What a placement reads: the byte 1 and 4,095 zeros. -/
def readsPage (r : Except (Nat × Nat) (List Byte)) : Bool := match r with
  | .ok bs => decide (bs.head? = some 1) && bs.tail.all (fun b => decide (b = 0)) && decide (bs.length = 4096)
  | .error _ => false

theorem witness_page_read : readsPage ((pageWaits [(7, waiting_ 7 none)]).readVirtual 0 1 0 (some (0, 0)) 64 0x310000).2 = true := by decide +kernel

theorem witness_page_place : (pageWaits [(7, waiting_ 7 none)]).placement 0 = some (waiting_ 7 none, 0) ∧ (pageWaits [(7, waiting_ 7 none)]).inst? 0 1 = some inst1 ∧
    (pageWaits [(7, waiting_ 7 none)]).pageThread (waiting_ 7 none) = some { th with inst := 1 } ∧ ((pageWaits []).part 0).replay = [] ∧
    bindBad? ([1] ++ zeros 4095) { th with inst := 1 } = none ∧ pgKind ([1] ++ zeros 4095) ≠ 1 := by decide +kernel

theorem witness_page_checks : pageBad? ([1] ++ zeros 4095) 0 = none := by rw [pageBad_padded]; decide +kernel

/-- A KIND 1 image: `agl 0` in slot 0, its descriptor of words of the global space under window set 0. -/
def windowHead : List Byte := placed 0 [(0, leBytes 4 (1 + 2 ^ 24)), (0x10, eword 0x50 0x1FF 0x1FF 0), (0x110, leBytes 4 (0x1FF + 0x1FF * 2 ^ 9))]
def windowTail : List Byte := leBytes 8 0x300000 ++ leBytes 8 (2 * 2 ^ 46) ++ leBytes 4 4 ++ leBytes 4 1 ++ leBytes 4 1 ++ leBytes 4 1 ++ leBytes 8 4
def windowImage : List Byte := windowHead ++ zeros (0x710 - 0x114) ++ windowTail
def windowInst : Inst := { inst1 with kywinVa := 0x320000, kywinSize := 128 }
def windowWaits : State := { pageWaits [(7, waiting_ 7 none)] with insts := [windowInst] }

theorem witness_page_windows : pgKind windowImage = 1 ∧ (List.range (pgAgcount windowImage + 1)).filter (fun d => agSpace windowImage d = 0) = [0] ∧
    (windowWaits.loadWindows { waiting_ 7 none with va := 0x310000 } windowInst 0 (some (0, 0)) windowImage [0]).2 = .ok [(0, zeros 128)] := by decide +kernel

theorem witness_page_windows_check : pageBad? windowImage 128 = none := by
  unfold windowImage
  simp only [pageBad?, pageChecks, pgIcount, pgKind, pgPorts, pgAgcount, pgInit, pgMon, pgRnd, pgNtok, pgRsuen, elementOk, agConstOk, rsuOk, initialOk, descriptorChecks, portChecks,
    slotUsed, Machine.consumersOk, Machine.consumerOk, elemWord, elemConst, portWord, portDir, portKind, portTag, portTchk, portBack, portSlot, portTps, portWidth, pgPhases, rsuWord, agDescs, slotOp, portServers, consumersOf,
    agBase, agSpace, agDir, agSlot, agSize, agWset, agFmt, agCount, agStride, agTotal, agField, field_gap]
  decide +kernel

/-- `rin 0` in slot 0 of an image with one port. -/
def portHead : List Byte := placed 0 [(0, leBytes 4 (1 + 2 ^ 18)), (0x10, eword 0x54 0x1FF 0x1FF 0)]
def portTail : List Byte := leBytes 4 1 ++ leBytes 4 1
def portImage : List Byte := portHead ++ zeros (0xB10 - 0x14) ++ portTail

theorem witness_port_image : pageBad? portImage 0 = none := by
  unfold portImage
  simp only [pageBad?, pageChecks, pgIcount, pgKind, pgPorts, pgAgcount, pgInit, pgMon, pgRnd, pgNtok, pgRsuen, elementOk, agConstOk, rsuOk, initialOk, descriptorChecks, portChecks,
    slotUsed, Machine.consumersOk, Machine.consumerOk, elemWord, elemConst, portWord, portDir, portKind, portTag, portTchk, portBack, portSlot, portTps, portWidth, pgPhases, rsuWord, agDescs, slotOp, portServers, consumersOf,
    agBase, agSpace, agDir, agSlot, agSize, agWset, agFmt, agCount, agStride, agTotal, agField, field_gap]
  decide +kernel

/-- An image of zeros breaks the check of its version, and a page whose port's handle is not bound does not bind. -/
theorem witness_page_rejected : pageBad? (zeros 4096) 0 = some 0 ∧ bindBad? portImage th = some (4, 0) ∧
    (pageWaits [(7, waiting_ 7 none)]).firingThread { waiting_ 7 none with va := 0x310000 } = none ∧
    (({ pageWaits [(7, waiting_ 7 none)] with threads := [(0, firing)] } : State).firingThread { waiting_ 7 none with va := 0x310000 }) = some firing := by
  refine ⟨?_, by decide +kernel, by decide +kernel, by decide +kernel⟩
  have h := pageBad_padded [] 4096 0
  rw [List.nil_append] at h; rw [h]; decide +kernel

theorem witness_page_evict : (pageWaits [(7, waiting_ 7 none), (8, waiting_ 8 (some 0))]).victim 0 = some (waiting_ 8 (some 0)) ∧
    (waiting_ 8 (some 0)).st.flight = [] ∧ (pageWaits [(8, waiting_ 8 (some 0))]).page? 8 = some (waiting_ 8 (some 0)) := by decide +kernel
/-! #### Firings, graph requests and queues -/

/-- Thread 0 of actor 0 of instance 1; `regs` gives its `s1` and `s2`. -/
def actorTh (v w : Word) : Thread := (({ th with inst := 1, worker := false, actor := 0 } : Thread).setReg 1 v).setReg 2 w
def graphState (i : Inst) (t : Thread) : State := { act t with insts := [i] }

/-- The instance whose actor declares a count for handle 3, which has three slots available. -/
def ratedInst (n : Nat) : Inst := { inst1 with rates := [(1, [[], [], [], [n]])] }
def ratedTh : Thread := { actorTh 0 0 with handles := (ringTh 0 0 10 3).handles }
def ratedState (n : Nat) : State := { graphState (ratedInst n) ratedTh with mem := base.mem.write (counters 13 10) }

theorem witness_fire_begin : Issues (ratedState 3) ratedTh ∧ RunsFreely (ratedState 3) ratedTh (ratedInst 3) ∧ ratedTh.worker = false ∧ ratedTh.region = none ∧
    (ratedState 3).pages = [] ∧ (ratedState 3).firingReady ratedTh (ratedInst 3) = some true ∧ (ratedState 4).firingReady ratedTh (ratedInst 4) = some false ∧
    RunsFreely (ratedState 4) ratedTh (ratedInst 4) := by decide +kernel

def pageOne (wanted : Bool) : Page := { id := 0, part := 0, inst := 1, ordinal := 0, index := 0, wanted }

/-- A firing that has taken its three slots. -/
def firingTh : Thread := { ratedTh with
  buf := stored 0x300000 0x300000 true 0 [1], region := regionTh.region.map fun r => { r with deferred := [.take 3 3], taken := r.taken.set 3 3 } }
def endState : State := { ratedState 3 with threads := [(0, firingTh)] }

theorem witness_fire_end : Issues endState firingTh ∧ RunsFreely endState firingTh (ratedInst 3) ∧ firingTh.region.isSome = true ∧
    (∀ r ∈ firingTh.region, r.isTask = false ∧ r.pubs = [] ∧ endState.shortHandle firingTh r = none ∧ r.deferred = [.take 3 3]) ∧ (endState.tile 0).cmds = [] ∧
    endState.subs = [] ∧ endState.pagesOf firingTh = [] ∧ firingTh.actor < (ratedInst 3).actors.length := by decide +kernel

/-- A wanted page of the firing has posted slots due, and one that is not wanted has no image. -/
def postedPage : Page := { (streamPage []).setPort 15 { finished := 2, count := 3 } with wanted := true }
def endPages : State := { endState with pages := [(0, pageOne false), (7, postedPage)] }

theorem witness_fire_end_pages : Issues endPages firingTh ∧ RunsFreely endPages firingTh (ratedInst 3) ∧
    endPages.pagesOf firingTh = [pageOne false, postedPage] ∧ endPages.page? 7 = some postedPage ∧ endPages.page? 0 = some (pageOne false) ∧
    postedPage.wanted = true ∧ postedPage.image ≠ [] ∧ pgMon postedPage.image = false ∧ (postedPage.port 15).finished = 2 := by decide +kernel

theorem witness_graph_requests : Issues (graphState inst1 (actorTh 1 1000000)) (actorTh 1 1000000) ∧
    RunsFreely (graphState inst1 (actorTh 1 1000000)) (actorTh 1 1000000) inst1 ∧ (∀ e ∈ (graphState inst1 (actorTh 1 1000000)).threads, e.2.wait = none) ∧
    1 < inst1.nmode ∧ inst1.mode = 0 ∧ ((actorTh 4095 0).reg 1).toNat < 4096 ∧ ((actorTh 1 1000000).reg 2).toNat ≤ 1000000 ∧
    th.worker = true ∧ inst1.completed.toNat = 0 := by decide +kernel

def workerTh (v : Word) : Thread := ({ th with inst := 1 } : Thread).setReg 1 v

theorem witness_mark_wait : Issues (graphState inst1 (workerTh 0)) (workerTh 0) ∧ RunsFreely (graphState inst1 (workerTh 0)) (workerTh 0) inst1 ∧
    (workerTh 0).worker = true ∧ ((workerTh 0).reg 1).toNat ≤ inst1.completed.toNat ∧ inst1.completed.toNat < ((workerTh 1).reg 1).toNat := by decide +kernel

def pageTh (v : Word) : Thread := { actorTh v 0 with region := regionTh.region }
def pagesState (v : Word) (pages : Tab Page) : State := { graphState inst1 (pageTh v) with pages, pageNext := pages.length }

theorem witness_page_request : Issues (pagesState 0 []) (pageTh 0) ∧ (pagesState 0 []).inst? 0 1 = some inst1 ∧ ((pageTh 0).reg 1).toNat < inst1.npage ∧
    (pagesState 0 []).pageAt (pageTh 0) 0 = none ∧ ((pagesState 0 []).wantedPages (pageTh 0)).length < (inst1.actors.getD 0 {}).regions ∧
    (pagesState 0 [(0, pageOne true)]).pageAt (pageTh 0) 0 = some (pageOne true) ∧ ((pageTh allOnes).reg 1) = allOnes ∧ (pageTh 0).worker = false := by decide +kernel

/-- Selectors of every item, in a firing and of a worker, and selectors of none. -/
theorem witness_monitor : (∀ v ∈ [0, 1 + 256 * 15, 2, 6, 3, 4, 5], Issues (pagesState (word v) []) (pageTh (word v)) ∧ ((pageTh (word v)).reg 1).toNat = v) ∧
    (pagesState 6 []).inst? 0 1 = some inst1 ∧ (pagesState 6 []).pageAt (pageTh 6) 0 = none ∧
    (pagesState 6 [(0, pageOne true)]).pageAt (pageTh 6) 0 = some (pageOne true) ∧ Issues (graphState inst1 (workerTh 256)) (workerTh 256) ∧
    (workerTh 256).worker = true ∧ (∀ v ∈ [2 ^ 32, 7, 3 + 256, 1 + 256 * 16, 2 + 256, 6 + 256], ((pageTh (word v)).reg 1).toNat = v) := by decide +kernel

/-- A mapped queue of two records whose array lies at 0x300000. -/
def queueOne (head tail mode : Nat) (host : Bool) : NewtQueue :=
  { part := 0, q := 2, ring := 0x300000, lsize := 1, mode, host, prio := 0, pend := false, owner := 0, head, tail, period := 100, slack := 10, t0 := 0, late := 0
    nulls := 0, next := tail }
def queueState (t : Thread) (q : NewtQueue) : State :=
  { graphState inst1 t with
    queues := [q], dev := { base.dev with ready := true }, parts := tabSet base.parts 0 { base.part 0 with qCount := 3 }
    mem := base.mem.write (cellsAt 0x300040 (leBytes 8 5 ++ leBytes 8 6)) }

theorem witness_claim : Issues (queueState (workerTh 2) (queueOne 1 2 0 false)) (workerTh 2) ∧
    RunsFreely (queueState (workerTh 2) (queueOne 1 2 0 false)) (workerTh 2) inst1 ∧ wellFormed (.qClaim 24 1) = true ∧ (workerTh 2).region = none ∧
    (workerTh 2).reg 1 ≠ allOnes ∧ (queueState (workerTh 2) (queueOne 1 2 0 false)).queue? 0 2 = some (queueOne 1 2 0 false) ∧
    ((queueIn (queueState (workerTh 2) (queueOne 1 2 0 false)) (workerTh 2) (queueOne 1 2 0 false)).newtAddr 0 2 .read 0x300040 64).2 = .ok 0x300040 ∧
    ((queueIn (queueState (workerTh 2) (queueOne 2 2 0 false)) (workerTh 2) (queueOne 2 2 0 false)).newtAddr 0 2 .read 0x300000 64).2 = .ok 0x300000 := by
  decide +kernel

def pubTh (region : Option Region) : Thread := { actorTh 2 0x300040 with region, buf := stored 0x380000 0x380000 true 0 [1] }

/-- What `q.pub` maps the queue in, and where its stores are out. -/
def pubIn (s : State) (t : Thread) : State := ((issuedIn s t).chargeThread (issuedBy s t) 0x3A 1)
def pubOut (s : State) (t : Thread) (q : NewtQueue) : State :=
  ((((pubIn s t).loadGlobal (issuedBy s t) (t.reg 2).toNat 64).1.setQueue { q with lastUsed := s.steps }).publishAll (issuedBy s t)).1

theorem witness_publish : Issues (queueState (pubTh none) (queueOne 1 2 0 false)) (pubTh none) ∧ ((pubTh none).reg 2).toNat % 64 = 0 ∧
    ((pubIn (queueState (pubTh none) (queueOne 1 2 0 false)) (pubTh none)).loadGlobal (issuedBy (queueState (pubTh none) (queueOne 1 2 0 false)) (pubTh none))
      0x300040 64).2 = .ok (leBytes 8 5 ++ leBytes 8 6 ++ zeros 48) ∧
    (queueOne 1 2 0 false).tail - (queueOne 1 2 0 false).head < 2 ^ (queueOne 1 2 0 false).lsize ∧ (queueOne 1 2 0 false).host = false ∧
    ((pubOut (queueState (pubTh none) (queueOne 1 2 0 false)) (pubTh none) (queueOne 1 2 0 false)).newtAddr 0 2 .write 0x300000 64).2 = .ok 0x300000 ∧
    Issues (queueState (pubTh regionTh.region) (queueOne 1 2 0 false)) (pubTh regionTh.region) ∧ (pubTh regionTh.region).region.isSome = true := by decide +kernel

theorem witness_queue_wait : Issues (queueState (workerTh 2) (queueOne 2 2 0 false)) (workerTh 2) ∧
    (queueState (workerTh 2) (queueOne 2 2 0 false)).queue? 0 2 = some (queueOne 2 2 0 false) ∧ (queueOne 2 2 0 false).tail ≤ (queueOne 2 2 0 false).head ∧
    (queueOne 2 2 0 false).pend = false ∧ (queueOne 1 2 0 false).head < (queueOne 1 2 0 false).tail ∧ (queueOne 1 2 0 false).waiters = [] := by decide +kernel

/-- The queue's descriptor lies at 0x320000; its waiter, or none, decides whether it is kept. -/
def syncState (q : NewtQueue) : State :=
  let s := queueState (workerTh 2) q
  s.setPart 0 { s.part 0 with qTable := word 0x320000 }

theorem witness_queue_sync : (syncState (queueOne 2 2 0 false)).queue? 0 2 = some (queueOne 2 2 0 false) ∧ 2 < ((syncState (queueOne 2 2 0 false)).part 0).qCount ∧
    ((syncState (queueOne 2 2 0 false)).part 0).replay = [] ∧ (queueOne 2 2 0 false).requeue = [] ∧ (queueOne 2 2 0 false).mode ≠ 2 ∧
    ((syncState (queueOne 2 2 0 false)).newtAddr 0 2 .write ((syncState (queueOne 2 2 0 false)).descVa 0 2) 64).2 = .ok 0x320080 ∧
    ((syncState { queueOne 2 2 2 true with waiters := [0] }).newtAddr 0 2 .write ((syncState { queueOne 2 2 2 true with waiters := [0] }).descVa 0 2) 64).2 = .ok 0x320080 ∧
    (syncState (queueOne 2 2 0 false)).queue? 0 1 = none ∧ (queueOne 1 2 0 false).pend = false ∧ ({ queueOne 2 2 0 false with pend := true } : NewtQueue).pend = true := by
  decide +kernel

/-- The partition's queue 2 with the function 0 that it holds, at a device time. -/
def hostState (q : NewtQueue) (time : Nat) : State :=
  { queueState (workerTh 2) q with funcs := tabSet [] 0 { part := some 0 }, dev := { base.dev with ready := true, time } }

theorem witness_host_side : (hostState (queueOne 1 2 0 true) 0).queue? 0 2 = some (queueOne 1 2 0 true) ∧ ((hostState (queueOne 1 2 0 true) 0).func 0).part = some 0 ∧
    2 < ((hostState (queueOne 1 2 0 true) 0).part 0).qCount ∧ (queueOne 1 2 0 true).host = true ∧ (queueOne 1 2 0 true).mode ≠ 2 ∧
    (((hostState (queueOne 1 2 0 true) 0).setQueue { queueOne 1 2 0 true with lastUsed := 0 }).newtAddr 0 2 .write 0x300000 64).2 = .ok 0x300000 := by decide +kernel

/-- Slot 2 of an ingest queue is due at 2 × 100 + 10. -/
theorem witness_ingest : (hostState (queueOne 1 2 2 true) 209).queue? 0 2 = some (queueOne 1 2 2 true) ∧
    (hostState (queueOne 1 2 2 true) 209).dev.time < 0 + 2 * 100 + 10 ∧ 2 % 2 ^ 1 ∉ (queueOne 1 2 2 true).closed ∧
    (((hostState (queueOne 1 2 2 true) 209).setQueue { queueOne 1 2 2 true with lastUsed := 0 }).newtAddr 0 2 .write 0x300000 64).2 = .ok 0x300000 ∧
    0 + 2 * 100 + 10 ≤ (hostState (queueOne 1 2 2 true) 210).dev.time ∧ ((hostState (queueOne 1 2 2 true) 210).newtAddr 0 2 .write 0x300000 64).2 = .ok 0x300000 := by
  decide +kernel
/-! #### Launches, instances, cuts, wakes and contexts -/

/-- An image of one actor without rings, pages or data, of a template that needs `rmin` tiles. -/
def image (rmin : Nat) : List Byte :=
  placed 0 [(0, leBytes 4 0x495A5453 ++ leBytes 2 1 ++ leBytes 2 1 ++ leBytes 8 64), (0x40, leBytes 8 5 ++ leBytes 8 0x80 ++ leBytes 8 672),
    (0x80, leBytes 4 0x101 ++ leBytes 2 1 ++ leBytes 2 0 ++ leBytes 4 rmin ++ leBytes 4 1 ++ leBytes 4 64 ++ leBytes 4 64 ++ leBytes 4 128),
    (0xD0, (List.replicate 32 0xFF))] ++ zeros 0x30 ++
    ((List.range 16).flatMap fun _ => leBytes 2 0xFFFF ++ zeros 30)

/-- A launch block of this image at 0x300000, and at 0x400000 the image; `n` more threads on the tile. -/
def launchTh : Thread := (({ th with inst := 9 } : Thread).setReg 1 0x300000).setReg 2 255
def launchState (n rmin : Nat) : State :=
  { (List.range n).foldl (fun s k => s.setThread { th with num := k + 1 }) (act launchTh) with
    dev := { base.dev with ready := true }, mem := base.mem.write (cellsAt 0x300000 (leBytes 8 0x400000 ++ leBytes 8 7) ++ (cellsAt 0x400000 (image rmin)).filter (fun c => decide (c.2 ≠ 0)))
    queues := [{ queueOne 0 1 1 false with ring := 0x300000 }] }
def launchBlock : List Byte := leBytes 8 0x400000 ++ leBytes 8 7 ++ zeros 48

/-- What a launch of the block reads and makes: the states of its steps, its placement and its instance. -/
def actorsPlaced (s : State) (w : Launcher) (base : Nat) : List Actor :=
  let r := launchReads s 0 w launchBlock
  (r.tb.1.placeActors (r.tb.1.part 0).tiles base (r.actors.map actorOf) []).getD []
def madeOf (s : State) (w : Launcher) (base num seq : Nat) : Inst :=
  instanceOf (launchReads s 0 w launchBlock) 0 w launchBlock base num seq (actorsPlaced s w base)
def initsRead (s : State) (w : Launcher) (base : Nat) : State × Except (Nat × Nat) (List (Nat × Byte)) :=
  let r := launchReads s 0 w launchBlock
  r.tb.1.readInits (madeOf s w base 0 0) w (r.rings.map ringOf)
def lastRead (s : State) (w : Launcher) (base : Nat) : State × Except (Nat × Nat) (List Byte) :=
  (initsRead s w base).1.readSpan 0 w (madeOf s w base 0 0).kywinVa ((madeOf s w base 0 0).kywinSize / 32 * 32)
def launched (s : State) (w : Launcher) (base : Nat) : Inst := madeOf s w base ((lastRead s w base).1.part 0).instNext (lastRead s w base).1.steps

/-- The checks of a launch without windows, each by itself. -/
theorem launch_passes {s : State} {w : Launcher} {base : Nat} (h1 : TemplatePasses (launchReads s 0 w launchBlock) 0 launchBlock)
    (h2 : ((launchReads s 0 w launchBlock).tb.1.placeActors ((launchReads s 0 w launchBlock).tb.1.part 0).tiles base
      ((launchReads s 0 w launchBlock).actors.map actorOf) []).isSome = true)
    (h3 : (initsRead s w base).2 = .ok []) (h4 : (lastRead s w base).2 = .ok []) (h5 : (launched s w base).kywinSize / 32 = 0) :
    LaunchPasses s (lastRead s w base).1 0 w launchBlock base (launched s w base) [] := by
  refine ⟨h1, actorsPlaced s w base, (initsRead s w base).1, [], ?_, Prod.ext rfl h3, Prod.ext rfl h4, fun k hk => absurd hk (by omega), rfl⟩
  obtain ⟨l, hl⟩ := Option.isSome_iff_exists.1 h2
  rw [hl, actorsPlaced, hl]; rfl

/-- Where `gr.launch` and a queue launch have read the block, and who launches. -/
def blockRead (s : State) : State := (((issuedIn s launchTh).chargeThread (issuedBy s launchTh) 0x21 1).loadGlobal (issuedBy s launchTh) 0x300000 64).1
def launcher (s : State) : Launcher := ⟨launchTh.level, launchTh.acct, launchTh.prio, 0, (blockRead s).islandOf 0⟩

theorem witness_launch : Issues (launchState 0 1) launchTh ∧ launchTh.region = none ∧ (launchState 0 1).dev.ready = true ∧ (launchTh.reg 1).toNat % 64 = 0 ∧
    (launchTh.reg 2).toNat = 255 ∧ (((issuedIn (launchState 0 1) launchTh).chargeThread (issuedBy (launchState 0 1) launchTh) 0x21 1).loadGlobal
      (issuedBy (launchState 0 1) launchTh) 0x300000 64).2 = .ok launchBlock := by decide +kernel

theorem witness_launch_passes (rmin : Nat) (h : rmin ∈ [1, 2]) : LaunchPasses (blockRead (launchState 0 rmin))
    (lastRead (blockRead (launchState 0 rmin)) (launcher (launchState 0 rmin)) 255).1 0 (launcher (launchState 0 rmin)) launchBlock 255
    (launched (blockRead (launchState 0 rmin)) (launcher (launchState 0 rmin)) 255) [] := by
  have all : ∀ rmin ∈ [1, 2], (let s := blockRead (launchState 0 rmin)
      let w := launcher (launchState 0 rmin)
      let r := launchReads s 0 w launchBlock
      TemplatePasses r 0 launchBlock ∧ (r.tb.1.placeActors (r.tb.1.part 0).tiles 255 (r.actors.map actorOf) []).isSome = true ∧
      (initsRead s w 255).2 = .ok [] ∧ (lastRead s w 255).2 = .ok [] ∧ (launched s w 255).kywinSize / 32 = 0) := by decide +kernel
  exact launch_passes (all rmin h).1 (all rmin h).2.1 (all rmin h).2.2.1 (all rmin h).2.2.2.1 (all rmin h).2.2.2.2

/-- The instance is new, of one core actor; its account may be exhausted, and its template may need two tiles. -/
def startsWhere (s : State) (w : Launcher) : Nat × Nat × Bool × Bool × Bool :=
  let i := launched s w 255
  let c := (lastRead s w 255).1.create i w none []
  (i.num, i.rmin, decide (NewNumber s i) && i.actors.all (fun x => decide (x.kind = 0)), c.exhausted i.acct,
    match c.startActors i w (List.range i.actors.length) with | .ok _ => true | .error _ => false)

theorem witness_launch_starts : startsWhere (blockRead (launchState 0 1)) (launcher (launchState 0 1)) = (1, 1, true, false, true) ∧
    startsWhere (blockRead (launchState 0 2)) (launcher (launchState 0 2)) = (1, 2, true, false, true) ∧
    startsWhere (blockRead ((launchState 0 1).setAccount 0 { status := 1 })) (launcher (launchState 0 1)) = (1, 1, true, true, true) ∧
    (base.part 0).tiles = [0] := by decide +kernel

def launchRefused (c : Nat) : Launched → Bool | .refused _ code _ => decide (code = c) | _ => false

/-- Every slot of the one tile is taken. -/
theorem witness_launch_refused : Issues (launchState 3 1) launchTh ∧ launchBlock.length = 64 ∧ leNat ((launchBlock.drop 16).take 8) = 0 ∧
    launchRefused 1 ((blockRead (launchState 3 1)).launch 0 launchBlock 0x300000 (launcher (launchState 3 1)) (some 255)
      (some (launchTh.part, launchTh.inst, launchTh.ordinal))) = true := by decide +kernel

/-- Where the queue launch has taken its record. -/
def queueRead : State :=
  (((launchState 0 1).newtAddr 0 2 .read 0x300000 64).1.setQueue { queueOne 0 1 1 false with ring := 0x300000, head := 1 }).chargeOwner
    { queueOne 0 1 1 false with ring := 0x300000 }
def queueLauncher : Launcher := ⟨((launchState 0 1).func 0).level, 0, 0, (launchState 0 1).newtDie 0 2, newtIsland ((launchState 0 1).newtDie 0 2)⟩

theorem witness_queue_launch : (launchState 0 1).queue? 0 2 = some { queueOne 0 1 1 false with ring := 0x300000 } ∧ ((launchState 0 1).part 0).replay = [] ∧
    ((launchState 0 1).newtAddr 0 2 .read 0x300000 64).2 = .ok 0x300000 ∧ ((launchState 0 1).newtAddr 0 2 .read 0x300000 64).1.readBytes 0x300000 64 = launchBlock ∧
    (launchState 0 1).dev.ready = true ∧ field launchBlock 0x18 1 = 0 := by decide +kernel

theorem witness_queue_launch_passes : LaunchPasses queueRead (lastRead queueRead queueLauncher 0).1 0 queueLauncher launchBlock 0 (launched queueRead queueLauncher 0) [] := by
  have all : (let r := launchReads queueRead 0 queueLauncher launchBlock
      TemplatePasses r 0 launchBlock ∧ (r.tb.1.placeActors (r.tb.1.part 0).tiles 0 (r.actors.map actorOf) []).isSome = true ∧
      (initsRead queueRead queueLauncher 0).2 = .ok [] ∧ (lastRead queueRead queueLauncher 0).2 = .ok [] ∧
      (launched queueRead queueLauncher 0).kywinSize / 32 = 0) := by decide +kernel
  exact launch_passes all.1 all.2.1 all.2.2.1 all.2.2.2.1 all.2.2.2.2

/-- An instance whose MSE actor 1 and thread actor 0 share ring 0, with the subscription record of either direction at 0x300000. -/
def mseInst (dir : Nat) : Inst :=
  { inst1 with
    dataVa := 0x300000, rings := [{ prod := dir, cons := 1 - dir, slot64 := 2, depth := 8 }]
    actors := [{ hmap := [0xFFFF, 0xFFFF, 0xFFFF, 4096 * (1 - dir)] }, { kind := 1, hmap := [4096 * dir] }] }
def mseState (dir rec_ : Nat) : State := { msState dir 0 with
  threads := [(0, { msTh (1 - dir) 0 with inst := 1, actor := 0, worker := false })], mem := base.mem.write (cellsAt 0x300000 (subRecord rec_)) }

theorem witness_mse_actor : ∀ dir < 2,
    (((List.range 16).findSome? fun h => ((mseInst dir).ringOf 1 h).map fun r => (h, r)).map fun x => (x.1, x.2.1, x.2.2.2)) = some (0, 0, dir) ∧
    ((mseState dir (1 - dir)).actorThread 0 1 0).isSome = true ∧
    ((List.range 16).find? fun k => ((mseInst dir).ringOf 0 k).any fun q => decide (q.1 = 0 ∧ q.2.2 = 1 - dir)) = some 3 ∧
    ((mseState dir (1 - dir)).readSpan 0 (launcher base) 0x300000 128).2 = .ok (subRecord (1 - dir)) ∧ ((msTh (1 - dir) 0).handle 3).role = subDir (subRecord (1 - dir)) ∧
    (mseState dir (1 - dir)).ringBusy 0 ((msTh (1 - dir) 0).handle 3) (subRecord (1 - dir)) = false ∧
    (mseState dir (1 - dir)).subBad ((msTh (1 - dir) 0).handle 3) (subRecord (1 - dir)) = none ∧ 0 < (subTensor (subRecord (1 - dir))).rows ∧
    ((msTh (1 - dir) 0).handle 3).role ≠ subDir (subRecord dir) := by decide +kernel

/-- A ring with one initial slot. -/
theorem witness_ring_set_up : (base.readInits { inst1 with dataVa := 0x340000 } (launcher base) [{ prod := 0, cons := 0, slot64 := 1, depth := 2, delay := 1 }]).2.isOk = true := by
  decide +kernel

/-- An instance of partition 0 in a state, and a partition with it alone. -/
def instIn (st : InstState) (doneVa : Nat) : Inst := { inst1 with state := st, doneVa, cut := none }
def alone (l : List Inst) : State := { base with insts := l }

theorem witness_instance_end : (alone [instIn .ending 0x300000]).inst? 0 1 = some (instIn .ending 0x300000) ∧ Bare (alone [instIn .ending 0x300000]) 0 1 ∧
    (instIn .ending 0x300000).doneVa ≠ 0 ∧ (base.translate 0 0 1 true .write 0x300000 8).2 = .ok 0x300000 ∧ base.badBlocks = [] ∧ (instIn .ending 0).doneVa = 0 := by
  decide +kernel

/-- A homeless thread of instance 2 that no tile has room for: thread 0 of instance 1 holds the same Skink banks. -/
def lowInst : Inst := { inst1 with prio := 0 }
def highInst : Inst := { inst1 with num := 2, prio := 1, state := .stopped, schedStopped := true }
def homelessTh : Thread := { engTh 0 0 with num := 768, inst := 2, actor := 0, worker := false, state := .stopped }
def rivals : State := { alone [highInst, lowInst] with threads := [(0, { engTh 0 0 with inst := 1, actor := 0, worker := false }), (768, homelessTh)] }

theorem witness_preempt : Undisturbed rivals lowInst ∧ lowInst.prio < highInst.prio ∧ rivals.waits highInst = true ∧ (rivals.makeRoom highInst).isNone = true ∧
    highInst.num ≠ lowInst.num := by decide +kernel

def stoppedTh : Thread := { th with inst := 1, state := .stopped }
def stoppedInst : Inst := { inst1 with state := .stopped }
def stoppedState : State := { alone [stoppedInst] with threads := [(0, stoppedTh)] }

theorem witness_resume : stoppedState.inst? 0 1 = some stoppedInst ∧ stoppedInst.pending = none ∧ stoppedInst.goOn = none ∧ stoppedInst.cut = none ∧
    stoppedState.instExhausted stoppedInst = false ∧ stoppedInst.rmin ≤ (stoppedState.part 0).tiles.length ∧ stoppedInst.saved = [] ∧
    stoppedTh.task = none ∧ stoppedTh.ctxEdits = [] ∧ stoppedTh.recordId = 0 ∧ stoppedState.contextBad? stoppedTh = none ∧ stoppedInst.resizeWait = false ∧
    stoppedState.restoreSlot stoppedTh = stoppedTh.num := by decide +kernel

/-- The state that room has been made in. -/
def roomFor_ (s : State) (i : Inst) (f : State → Bool) : Bool := match s.makeRoom i with | some s1 => f s1 | none => false

theorem witness_scheduler_resume : ({ rivals with insts := [highInst], threads := [(768, homelessTh)] } : State).canRun highInst = true ∧
    ({ rivals with insts := [highInst], threads := [(768, homelessTh)] } : State).instExhausted highInst = false ∧
    roomFor_ { rivals with insts := [highInst], threads := [(768, homelessTh)] } highInst (fun s1 => (s1.inst? 0 2).any fun k =>
      decide (k.pending = none ∧ k.goOn = none ∧ k.cut = none ∧ s1.instExhausted k = false ∧ k.rmin ≤ (s1.part 0).tiles.length)) = true := by decide +kernel

/-- Cut 1 of an instance whose aligned actor 0 has a back-edge input on handle 3, with the cut's marker at Head. -/
def backRing : Ring := { prod := 0, cons := 0, slot64 := 2, depth := 8, back := true }
def backInst : Inst :=
  { inst1 with state := .cutting, started := 1, cut := some { num := 1, purposes := 2 }, rings := [backRing]
               actors := [{ aligned := true, hmap := [0xFFFF, 0xFFFF, 0xFFFF, 0] }] }
def backTh : Thread := { ringTh 0 0 10 0 with inst := 1, actor := 0, worker := false }
def backState : State :=
  { act backTh with
    insts := [backInst]
    mem := base.mem.write (counters 11 10 ++ cellsAt 0x8000000004100 (leBytes 4 1024) ++ cellsAt 0x8000000004140 (leBytes 4 (2 ^ 21))) }

theorem witness_back_marker : backState.inst? 0 1 = some backInst ∧ backState.actorThread 0 1 0 = some backTh ∧ (3, backRing) ∈ backInst.ends 0 0 ∧
    backRing.back = true ∧ (backTh.handle 3).p = 0 ∧ backState.headMarker 0 (backTh.handle 3) = some (1 % 1024) ∧ (backTh.handle 3).role = 0 ∧
    (if backTh.worker then backTh.aligned else (backInst.actors.getD backTh.actor {}).aligned) = true := by decide +kernel

def lateInst : Inst := { inst1 with state := .cutting, started := 1, cut := some { num := 1, purposes := 2, deadline := some 0 } }

theorem witness_forced_cut : (alone [lateInst]).inst? 0 1 = some lateInst ∧ Bare (alone [lateInst]) 0 1 ∧ 0 ≤ (alone [lateInst]).dev.elapsed ∧
    ((alone [lateInst]).part 0).recRing = 0 := by decide +kernel

/-- A thread that waits at an instruction. -/
def waitsAt (t : Thread) (i : Instr) : Thread := { t with state := .waiting, wait := some { instr := i } }

theorem witness_wakes : (ringState (waitsAt (ringTh 0 0 10 3) (.ringWait 3 1)) 13).thread? 0 = some (waitsAt (ringTh 0 0 10 3) (.ringWait 3 1)) ∧
    Standing (ringState (waitsAt (ringTh 0 0 10 3) (.ringWait 3 1)) 13) (waitsAt (ringTh 0 0 10 3) (.ringWait 3 1)) 3 0 3 ∧
    Standing (ringState (waitsAt (ringTh 0 0 10 4) (.ringWait 3 1)) 13) (waitsAt (ringTh 0 0 10 4) (.ringWait 3 1)) 3 0 3 ∧
    (waitsAt (workerTh 1) (.markWait 1)).pending = [] ∧ (act (waitsAt th .mxWait)).fenceOk 0 0 = true ∧ (waitsAt (workerTh 1) (.markWait 1)).state = .waiting ∧ (graphState inst1 (waitsAt (workerTh 1) (.markWait 1))).inst? 0 1 = some inst1 ∧
    (∀ c ∈ ((act (waitsAt th .mxWait)).tile 0).mxQ, c.name.thread ≠ 0) ∧ ((act (waitsAt th .mxWait)).tile 0).trcCtl = 0 ∧
    (∃ c ∈ ((busyTile.setThread (waitsAt th .mxWait)).tile 0).mxQ, c.name.thread = 0) := by decide +kernel

/-- Thread 0 selects the last word of the Stopped thread of ordinal 1 of its instance. -/
def editor : Thread := { th with inst := 1, ctxSel := word (1 + 1 * 2 ^ 32 + 255 * 2 ^ 48) }
def edited : Thread := { th with num := 1, inst := 1, ordinal := 1, state := .stopped }
def editState : State := { base with threads := [(0, editor), (1, edited)] }

theorem witness_contexts : editState.thread? 0 = some editor ∧ editState.selected editor = some edited ∧ edited.num ≠ editor.num := by decide +kernel

def owedTh : Thread := { stoppedTh with recordId := 5 }
def owedState : State := { (base.setPart 0 { base.part 0 with owed := [(5, .thread 0)] }) with insts := [inst1], threads := [(0, owedTh)] }

theorem witness_xdone : (owedState.part 0).owed = [(5, .thread 0)] ∧ owedState.thread? 0 = some owedTh ∧ owedState.inst? 0 1 = some inst1 ∧
    (owedState.setPart 0 { owedState.part 0 with owed := [] }).contextBad? { owedTh with recordId := 0 } = none ∧ inst1.state = .running ∧
    owedState.restoreSlot owedTh = 0 := by decide +kernel

/-- The thread stands in slot 1, and slot 0 of its tile is Free. -/
def movedTh : Thread := { owedTh with num := 1 }
def movedState : State := { (base.setPart 0 { base.part 0 with owed := [(5, .thread 1)] }) with insts := [inst1], threads := [(1, movedTh)] }

theorem witness_xdone_moves : (movedState.part 0).owed = [(5, .thread 1)] ∧ movedState.thread? 1 = some movedTh ∧ movedState.inst? 0 1 = some inst1 ∧
    (movedState.setPart 0 { movedState.part 0 with owed := [] }).contextBad? { movedTh with recordId := 0 } = none ∧ movedState.restoreSlot movedTh = 0 := by
  decide +kernel
/-! #### Energy, traces and checkpoints -/

/-- A selector of an item of account 0, and of the thread's own account. -/
def enTh (item n : Nat) (v : Word) : Thread := (th.setReg 1 (word (item + 16 * n))).setReg 2 v
def enState (t : Thread) (quota pool : Word) : State :=
  let s := (act t).setAccount 0 { quota }
  s.setPart 0 { s.part 0 with pool }

theorem witness_energy : Issues (enState (enTh 0 0 0) allOnes allOnes) (enTh 0 0 0) ∧ NoSpill (enState (enTh 0 0 0) allOnes allOnes) (enTh 0 0 0) ∧
    ((enState (enTh 0 0 0) allOnes allOnes).part 0).replay = [] ∧ Names (enState (enTh 0 0 0) allOnes allOnes) (enTh 0 0 0) (word 0) 0 0 := by
  refine ⟨by decide +kernel, by decide +kernel, by decide +kernel, 0, by decide +kernel⟩

theorem witness_energy_names : Names (enState (enTh 11 0x7F 0) allOnes allOnes) (enTh 11 0x7F 0) (word (11 + 16 * 0x7F)) 11 0 ∧
    Names (enState { enTh 10 0 0 with sw := swOf 2 0 0 0 } allOnes allOnes) { enTh 10 0 0 with sw := swOf 2 0 0 0 } (word 10) 10 0 :=
  ⟨⟨0x7F, by decide +kernel⟩, ⟨0, by decide +kernel⟩⟩

theorem witness_energy_sub : Issues (enState (enTh 1 0 5) 5 0) (enTh 1 0 5) ∧ ((enState (enTh 1 0 5) 5 0).account 0).quota ≠ allOnes ∧ (enTh 1 0 5).reg 2 ≠ 0 ∧
    ((enTh 1 0 5).reg 2).toNat ≤ ((enState (enTh 1 0 5) 5 0).account 0).quota.toNat ∧ ((enState (enTh 1 0 5) 5 0).part 0).pool ≠ allOnes ∧
    ((enState (enTh 1 0 6) 5 0).account 0).quota.toNat < ((enTh 1 0 6).reg 2).toNat ∧ ((enState (enTh 1 0 6) 5 allOnes).part 0).pool = allOnes ∧
    1 ≤ (enTh 1 0 6).level ∧ ((enTh 2 0 (word (2 ^ 48 - 1))).reg 2).toNat < 2 ^ 48 ∧ ((enTh 4 0 30).reg 2).toNat < 2 ^ 5 ∧
    ((enTh 4 0 30).reg 2).toNat % 2 = 0 ∧ ((enTh 6 0 0xFFFF).reg 2).toNat < 2 ^ 16 := by decide +kernel

/-- The meter was flushed 10 µs ago, or less. -/
theorem witness_flush : tabGet [] ({ base with meters := [(208, [(0, 256001)])] } : State).meters 208 = [(0, 256001)] ∧
    tabGet 0 ({ base with dev := { base.dev with elapsed := 10000 } } : State).dev.meterFlushed 208 / 10000 < 10000 / 10000 ∧
    9999 / 10000 ≤ tabGet 0 ({ base with dev := { base.dev with elapsed := 9999 } } : State).dev.meterFlushed 208 / 10000 ∧
    ({ base with dev := { base.dev with time := 1000000 } } : State).dev.interval < 1000000 / 1000000 := by decide +kernel

theorem witness_trim : ({ base with dev := { base.dev with cal := true, trimLast := 5, elapsed := 10000000005 } } : State).dev.trimLast + 10000000000 ≤ 10000000005 ∧
    (10000000004 : Nat) < 5 + 10000000000 := by decide

def traced (b : Tile) : State := base.setTile 0 { b with present := true, owner := some 0 }

theorem witness_trace : Issues (traced { trcCtl := 1 }) th ∧ ((traced { trcCtl := 1 }).tile 0).trcCtl.getLsbD 0 = true ∧
    ((traced { trcCtl := 1 }).tile 0).trcFrozen = false ∧ ((traced { trcCtl := 1 }).tile 0).trcPost = none ∧
    TraceRuns ((traced { trcCtl := word (1 + 2 ^ 8 + 2 ^ 12) }).tile 0) 7 0 ∧ TraceRuns ((traced { trcCtl := word (1 + 2 ^ 9 + 2 ^ 12), sampleCfg := 1 }).tile 0) 8 0 ∧
    ((traced { trcCtl := word (1 + 2 ^ 9 + 2 ^ 12), sampleCfg := 1 }).tile 0).sampleCfg.toNat % 2 ^ 32 ≠ 0 ∧
    (∀ j, j < 4 → j ≠ 0 → (traced { trcCtl := 1 }).thread? (4 * 0 + j) = none) ∧
    ((traced { trcPost := some (4, 0) }).tile 0).trcPost = some (4, 0) ∧ ((traced { trcPost := some (4, 0) }).tile 0).trcWptr = 0 ∧
    ((traced { trcFrozen := true, trcSel := word (8190 / 4 + 8190 % 4 * 2 ^ 11) }).tile 0).trcSel = word (8190 / 4 + 8190 % 4 * 2 ^ 11) := by decide +kernel

theorem witness_checkpoint_request : Issues { act { th with inst := 1 } with insts := [inst1] } { th with inst := 1 } ∧
    ((act { th with inst := 1 }).part 0).ckBusy = false ∧ Undisturbed { act { th with inst := 1 } with insts := [inst1] } inst1 := by decide +kernel

/-- The first period of 100 ms has passed. -/
def timed (busy : Bool) : State :=
  let s := base.setPart 0 { base.part 0 with ckBusy := busy }
  { s with dev := { s.dev with time := 100000000 } }

theorem witness_checkpoint_timer : ((timed false).part 0).exists_ = true ∧ 0 < 1000000 * wbits ((timed false).part 0).ckPeriod 0 24 ∧
    ((timed false).part 0).ckStart + 1000000 * wbits ((timed false).part 0).ckPeriod 0 24 ≤ (timed false).dev.time ∧
    ((timed false).part 0).ckBusy = false ∧ ((timed true).part 0).ckBusy = true ∧ (timed false).insts = [] ∧ (timed true).queues = [] ∧
    ((timed true).part 0).ckImage = none := by decide +kernel

/-- A checkpoint whose header chunk fills the tier's window of 64 bytes at 0x330000. -/
def tierPart : Partition :=
  { base.part 0 with ckBusy := true, ckImage := some [.header 0 7], ckTier := 0x330000, ckTierLen := 0x10000, ckTierLim := 64 }
def tierCkpt : Checkpoint :=
  { part := 0, id := 1, prev := 0, time := 7, granules := [], mem := [], descs := [], insts := [], threads := [], pages := [], subs := [], partState := tierPart
    wrapped := 9, key := 0, logPos := 0 }
def tierState : State := { base.setPart 0 tierPart with ckpts := [tierCkpt] }

theorem witness_checkpoint_chunk : (tierState.part 0).ckBusy = true ∧ (tierState.part 0).ckImage = some [.header 0 7] ∧ tierState.newest 0 = some tierCkpt ∧
    (tierState.part 0).ckTierLen ≠ 0 ∧ (tierState.part 0).ckTierWr.toNat + (chunkBytes tierPart tierCkpt (.header 0 7)).length ≤ (tierState.part 0).ckTierLim.toNat ∧
    (tierState.tierCells 0 (wbits tierPart.ckTier 16 40 * 65536) 0x10000 1 0 (chunkBytes tierPart tierCkpt (.header 0 7))).2 =
      cellsAt 0x330000 (leBytes 8 1 ++ leBytes 8 1 ++ leBytes 8 0 ++ leBytes 8 7 ++ leBytes 32 9) := by decide +kernel
/-! #### Partitions -/

/-- A request of the PF window; tiles 1 and 191 are presented and free. -/
def askedOf (code part : Nat) (arg0 arg1 : Word) : Control :=
  { busy := true, since := 1, cmd := word (code + part * 256), arg0, arg1 }
def asks (s : State) (code part : Nat) (arg0 arg1 : Word) : State := { s with dev := { s.dev with pf := askedOf code part arg0 arg1 } }
def roomy : State := ((base.setTile 1 { present := true }).setTile 191 { present := true })

/-- Two tiles, two granules and four queues; more tiles than there are. -/
def sizes (t g q : Nat) : Word := word (t + g * 2 ^ 8 + q * 2 ^ 24)

theorem witness_create : Stands (asks roomy 1 5 (sizes 2 2 4) (2 ^ 63)) false 1 5 (sizes 2 2 4) (2 ^ 63) ∧ ((asks roomy 1 5 (sizes 2 2 4) (2 ^ 63)).part 5).exists_ = false ∧
    functionsOf (2 ^ 63) = [63] ∧ (∀ f ∈ [63], ((asks roomy 1 5 (sizes 2 2 4) (2 ^ 63)).func f).part = none) ∧ Canonical (asks roomy 1 5 (sizes 2 2 4) (2 ^ 63)) ∧
    (roomy.freeTiles.take 2) = [1, 191] ∧ (roomy.freeGranules.take 2) = [1, 2] ∧ roomy.queueRange 5 4 = some 0 ∧ roomy.queueRange 5 65536 = some 0 := by decide +kernel

theorem witness_create_refused : Stands (asks roomy 1 0 (sizes 1 1 1) 1) false 1 0 (sizes 1 1 1) 1 ∧ ((asks roomy 1 0 (sizes 1 1 1) 1).part 0).exists_ = true ∧
    functionsOf 0 = [] ∧ (roomy.freeTiles.take 3).length < 3 := by decide +kernel

/-- Partition 0 holds function 0 with an ended instance, a queue and a translation. -/
def settled_ : State :=
  { base with
    insts := [instIn .running 0], queues := [queueOne 0 0 0 false], tlb := [{ slice := 0, part := 0, va := 0, level := 1, pte := 1 }]
    funcs := [(0, { part := some 0 })], threads := [], descs := [(16384, 5)] }

theorem witness_destroy : Stands (asks settled_ 2 0 0 0) false 2 0 0 0 ∧ Stands (asks settled_ 6 0 0 0) false 6 0 0 0 ∧ (settled_.part 0).exists_ = true ∧
    Canonical settled_ ∧ OnlyBare settled_ 0 ∧ (settled_.part 7).exists_ = false := by decide +kernel

/-- A partition of functions 0 and 1 with a limited pool, whose function 1 has a balance. -/
def pooled : State :=
  { base.setPart 0 { base.part 0 with functions := [0, 1], pool := 10 } with
    funcs := [(0, { part := some 0 }), (1, { part := some 0 })], accounts := [(1, { quota := 5 })] }

theorem witness_assign : Stands (asks pooled 4 0 0 6) false 4 0 0 6 ∧ (pooled.part 0).exists_ = true ∧ (∀ f ∈ functionsOf 6, (pooled.func f).part = none ∨ (pooled.func f).part = some 0) ∧
    ((functionsOf 6).filter fun f => decide (f ∉ (pooled.part 0).functions)) = [2] ∧ (pooled.part 0).pool ≠ allOnes ∧
    (∃ f ∈ functionsOf 8, ∃ k, (({ pooled with funcs := [(3, { part := some 9 })] } : State).func f).part = some k ∧ k ≠ 0) := by
  refine ⟨by decide +kernel, by decide +kernel, by decide +kernel, by decide +kernel, by decide +kernel, 3, by decide +kernel, 9, by decide +kernel⟩

theorem witness_release : Stands (asks pooled 5 0 0 2) false 5 0 0 2 ∧ ¬(∃ e ∈ pooled.threads, e.2.acct ∈ [1]) ∧ (∃ f ∈ (pooled.part 0).functions, f ∉ [1]) ∧
    pooled.meters = [] ∧ (∃ e ∈ pooled.threads, e.2.acct ∈ [0]) ∧ (∀ f ∈ (pooled.part 0).functions, f ∈ functionsOf 3) ∧
    ¬(∃ e ∈ ({ pooled with threads := [] } : State).threads, e.2.acct ∈ functionsOf 3) := by decide +kernel

theorem witness_no_partition : (∀ e ∈ [4, 5, 7, 8, 9, 11], Stands (asks base e 7 0 0) false e 7 0 0) ∧ (base.part 7).exists_ = false := by decide +kernel

theorem witness_settings : Stands (asks base 8 0 0 77) false 8 0 0 77 ∧ Stands (asks base 9 0 0xFFF 0) false 9 0 0xFFF 0 ∧
    Stands (asks base 11 0 5 9) false 11 0 5 9 ∧ (5 : Word).toNat / 16 ∈ (base.part 0).functions ∧
    ¬(∃ e ∈ base.parts, e.2.exists_ = true ∧ e.1 ≠ 0 ∧ e.2.links &&& 0xFFF ≠ 0) ∧
    (∃ e ∈ (base.setPart 1 { exists_ := true, links := 1 }).parts, e.2.exists_ = true ∧ e.1 ≠ 0 ∧ e.2.links &&& 0xFFF ≠ 0) := by decide +kernel

/-- Partition 0 has tile 0 and granule 0: a resize to one more of each, to fewer tiles, and to fewer granules. -/
def quiet (code : Nat) (a : Word) : State := { asks roomy code 0 a 0 with threads := [] }

theorem witness_resize : Stands (quiet 3 (sizes 2 2 1)) false 3 0 (sizes 2 2 1) 0 ∧ ((quiet 3 (sizes 2 2 1)).part 0).exists_ = true ∧
    ((quiet 3 (sizes 2 2 1)).part 0).resizing = none ∧ (roomy.freeTiles.take 1) = [1] ∧ (roomy.freeGranules.take 1) = [1] ∧
    (quiet 3 (sizes 2 2 1)).queuesFree 0 0 1 = true ∧ (quiet 3 (sizes 2 2 1)).threads = [] ∧ (quiet 3 (sizes 2 2 1)).insts = [] ∧ Canonical (quiet 3 (sizes 2 2 1)) ∧
    Stands (quiet 3 (sizes 0 1 0)) false 3 0 (sizes 0 1 0) 0 ∧ Stands (quiet 3 (sizes 1 0 0)) false 3 0 (sizes 1 0 0) 0 ∧
    1 + (roomy.freeTiles.take 3).length < 4 := by decide +kernel

theorem witness_resize_cut : Stands { quiet 3 (sizes 2 2 1) with insts := [inst1] } false 3 0 (sizes 2 2 1) 0 ∧
    Undisturbed { quiet 3 (sizes 2 2 1) with insts := [inst1] } inst1 := by decide +kernel

/-- The request came when the tile was a partition's. -/
def askedFor (p : Nat) : State := { quiet 10 191 with dev := { (quiet 10 191).dev with pf := { (quiet 10 191).dev.pf with target := some p } } }

/-- Tile 191 is free, tile 0 a partition's. -/
theorem witness_retire : Stands (quiet 10 191) false 10 0 191 0 ∧ ((quiet 10 191).tile 191).present = true ∧ ((quiet 10 191).tile 191).owner = none ∧
    Stands (quiet 10 0) false 10 0 0 0 ∧ ((quiet 10 0).tile 0).owner = some 0 ∧ ((quiet 10 0).part 0).resizing = none ∧ (quiet 10 0).threads = [] ∧
    (quiet 10 191).dev.pf.target = none ∧ ((quiet 10 191).part 0).exists_ = true ∧ ((quiet 10 191).part 7).exists_ = false ∧
    Stands (quiet 10 192) false 10 0 192 0 ∧ ((quiet 10 2).tile 2).present = false ∧
    (askedFor 7).dev.pf.target = some 7 ∧ Stands (askedFor 7) false 10 0 191 0 ∧ (askedFor 0).dev.pf.target = some 0 := by decide +kernel

/-- A full checkpoint of partition 0 with two bytes: one in granule 0, one in tile 0. -/
def fullCkpt : Checkpoint :=
  { tierCkpt with id := 3, chunks := [.header 0 7], mem := [(0x300000, 7), (2 ^ 48 + 0x40, 8)], partState := { base.part 0 with vec := 0x4000 } }
def restorable (kek : Option Nat) : State :=
  let s := (quiet 7 3).setPart 0 { (quiet 7 3).part 0 with ckTier := 0x330000, ckTierLen := 0x10000 }
  { s with ckpts := [fullCkpt], teth := { base.teth with kek }, mem := s.mem.write (cellsAt 0x330000 (chunkBytes tierPart fullCkpt (.header 0 7))) }

theorem witness_restore : Stands (restorable (some 5)) false 7 0 3 0 ∧ ((restorable (some 5)).ckpts.find? fun c => decide (c.part = 0 ∧ c.id = 3)) = some fullCkpt ∧
    fullCkpt.prev = 0 ∧ fullCkpt.insts = [] ∧ (restorable (some 5)).insts = [] ∧
    (restorable (some 5)).tierHolds 0 fullCkpt = true ∧ ({ restorable (some 5) with mem := base.mem } : State).tierHolds 0 fullCkpt = false ∧
    Canonical (restorable (some 5)) ∧ (restorable none).teth.kek = none ∧
    ((quiet 7 3).ckpts.find? fun c => decide (c.part = 0 ∧ c.id = 3)) = none := by decide +kernel

/-- The checkpoint with its key wrapped by 5; its stream is empty, so that nothing of it depends on the free wrap. -/
def keyedCkpt : Checkpoint := { fullCkpt with chunks := [], wrapped := Config.keyWrap 5 0 }
def keyed : State := { restorable (some 5) with ckpts := [keyedCkpt] }

theorem witness_restore_key : Stands keyed false 7 0 3 0 ∧ (keyed.ckpts.find? fun c => decide (c.part = 0 ∧ c.id = 3)) = some keyedCkpt ∧
    keyed.teth.kek = some 5 ∧ keyedCkpt.wrapped = Config.keyWrap 5 keyedCkpt.key ∧ keyed.tierHolds 0 keyedCkpt = true ∧ keyedCkpt.insts = [] ∧ Canonical keyed :=
  ⟨by decide +kernel, rfl, by decide +kernel, rfl, by decide +kernel, rfl, by decide +kernel⟩
/-! #### Apertures, arc links and errors -/

/-- Function 0 belongs to partition 0, whose page at 0x300000 user code may reach, and 0x20000000000 lies past it. -/
def apertureState (last : Option Nat) : State :=
  { base with
    mem := base.mem.write (cellsAt 0x300000 [1, 2, 3]), funcs := [(0, { part := some 0, lastPctl := last })]
    dev := { base.dev with elapsed := 5000000 } }

theorem witness_apertures : ((apertureState none).func 9).part = none ∧ ((apertureState none).func 0).part = some 0 ∧
    ((apertureState none).part 0).replay = [] ∧ ((apertureState none).part 0).ckCtl.getLsbD 1 = false ∧ ((apertureState none).part 0).qCount = 0 ∧
    HostPasses (apertureState none) ((apertureState none).translate 0 0 0 false .read 0x300000 3).1 0 .read 0x300000 3 0x300000 ∧
    HostPasses (apertureState none) ((apertureState none).translate 0 0 0 false .write 0x300000 3).1 0 .write 0x300000 3 0x300000 := by decide +kernel

theorem witness_aperture_refused : ((apertureState none).translate 0 0 0 false .write 0x20000000000 3).2 = .error (.absent 0x20000000000) ∧
    ((apertureState none).translate 0 0 0 false .read 0x20000000000 3).2 = .error (.absent 0x20000000000) ∧ (apertureState none).badBlocks = [] ∧
    ((apertureState (some 4500000)).func 0).lastPctl = some 4500000 ∧ (apertureState (some 4500000)).dev.elapsed < 4500000 + 1000000 ∧
    ((apertureState (some 4000000)).func 0).lastPctl = some 4000000 ∧ 4000000 + 1000000 ≤ (apertureState (some 4000000)).dev.elapsed ∧
    ((apertureState (some 4000000)).part 0).recRing = 0 := by decide +kernel

/-- An instance with ring 0 over arc link 2: from the link to tile 0, or from tile 0 to the link. -/
def arcRing (incoming : Bool) : Ring :=
  { prod := if incoming then 0xFFFF else 0, cons := if incoming then 0 else 0xFFFF, slot64 := 1, depth := 2, arc := 2, base := 0x1000, ccb := 0x800, pcb := 0x840 }
def arcInst (incoming : Bool) : Inst := { inst1 with actors := [{ tile := 0 }], rings := [arcRing incoming] }
def arcState (incoming : Bool) (count far : Nat) : State :=
  { base.setPart 0 { base.part 0 with links := 4 } with
    insts := [arcInst incoming]
    mem := base.mem.write (cellsAt (apertureBase 0 + if incoming then 0x800 else 0x840) (leBytes 8 count ++ leBytes 8 far)) }

theorem witness_arc_arrival : ArcEnd (arcState true 3 1) 2 0 true (arcInst true) (arcRing true) 0 ∧ ((arcState true 3 1).part 0).replay = [] ∧
    2 ≤ 3 - (arcState true 3 1).readNat (apertureBase 0 + 0x808) 8 ∧ ArcEnd (arcState true 3 2) 2 0 true (arcInst true) (arcRing true) 0 ∧
    (arcState true 3 2).readNat (apertureBase 0 + 0x800) 8 - (arcState true 3 2).readNat (apertureBase 0 + 0x808) 8 < 2 := by decide +kernel

theorem witness_arc_send : ArcEnd (arcState false 1 2) 2 0 false (arcInst false) (arcRing false) 0 ∧ (arcState false 1 2).readNat (apertureBase 0 + 0x840) 8 < 2 ∧
    2 ≤ (arcState false 1 2).readNat (apertureBase 0 + 0x848) 8 ∧ (tabGet? ((arcState false 1 2).link 2).sent ((arcInst false).launchSeq * 4096 + 0)).getD (arcRing false).delay < 2 ∧
    ArcEnd (arcState false 0 0) 2 0 false (arcInst false) (arcRing false) 0 ∧ (arcState false 0 0).readNat (apertureBase 0 + 0x848) 8 = 0 := by decide +kernel

/-- Link 2, which partition 0 has, is down since elapsed time 0. -/
def downLink (reported : Bool) (elapsed : Nat) : State :=
  { base.setPart 0 { base.part 0 with links := 4 } with links := [(2, { up := false, reported })], dev := { base.dev with elapsed } }

theorem witness_link_errors : (∀ e ∈ (downLink false 0).parts, e.2.recRing = 0) ∧ ((downLink false 0).link 3).up = true ∧ ((downLink false 0).link 2).up = false ∧
    (downLink false 100000000).dev.elapsed ≤ ((downLink false 100000000).link 2).downAt + 100000000 ∧ ((downLink true 0).link 2).reported = true ∧
    ((downLink false 100000001).link 2).downAt + 100000000 < (downLink false 100000001).dev.elapsed ∧ ((downLink false 100000001).link 2).reported = false := by
  decide +kernel

/-- Island 5 below the point asked for it, and above it. -/
theorem witness_thermal : tabGet 7 ({ base with dev := { base.dev with points := [(5, 1)] } } : State).dev.points 5 = 1 ∧
    1 ≤ tabGet 7 ({ base with dev := { base.dev with points := [(5, 1)] } } : State).dev.asked 5 ∧
    tabGet 7 ({ base with dev := { base.dev with asked := [(5, 3)] } } : State).dev.asked 5 < tabGet 7 base.dev.points 5 := by decide +kernel

/-! #### Tethys and the device's life -/

/-- Tethys has booted in a part with main power, with a record in its error log. -/
def oldRecord : Record := { kind := 3, cause := 0x94, time := 0 }
def listening (power : Bool) (t : Tethys) : State :=
  { base with dev := { base.dev with mainPower := power, errLog := [oldRecord], errTail := 5, errHead := 4 }, teth := { t with booted := true } }

theorem witness_tethys_reads : Listens (listening true {}) ∧ (listening true {}).teth.recovery = false ∧ (listening true {}).dev.mainPower = true ∧
    5 ≤ (listening true {}).dev.errTail ∧ 3 + (listening true {}).dev.errLog.length < (listening true {}).dev.errTail ∧
    (4 < (listening true {}).dev.errTail ∧ (listening true {}).dev.errTail ≤ 4 + (listening true {}).dev.errLog.length ∧
      (listening true {}).dev.errLog.length ≤ (listening true {}).dev.errTail ∧
      (listening true {}).dev.errLog[4 - ((listening true {}).dev.errTail - (listening true {}).dev.errLog.length)]? = some oldRecord) ∧
    Listens (listening false { recovery := true }) ∧ (listening false {}).dev.mainPower = false ∧ (listening false { recovery := true }).teth.recovery = true := by
  decide +kernel

/-- The operator's own signature is a signature, and any other counter is refused. -/
def sigOf (code ctr : Nat) (args : List Nat) : Nat := Config.ed448Sign 0 (Config.shake256 (code :: ctr :: args))

theorem witness_signed (args : List Nat) (code : Nat) : Signed (listening true {}) code 1 (sigOf code 1 args) args ∧
    ¬Signed (listening true {}) code 0 (sigOf code 0 args) args ∧ Listens (listening true {}) ∧ (listening true {}).dev.teth.busy = false ∧
    ({ listening true {} with dev := { (listening true {}).dev with teth := { busy := true } } } : State).dev.teth.busy = true := by
  refine ⟨⟨by decide +kernel, by decide, ?_⟩, fun h => absurd h.1 (by decide +kernel), by decide +kernel, by decide +kernel, by decide +kernel⟩
  have h : (listening true {}).teth.operatorKey = 0 := by decide +kernel
  rw [h]; simp [Config.ed448Check, sigOf]

/-- An image that the firmware key has signed starts as long as its index is not below the counter. -/
def signedImage : FwImage :=
  { key := Config.firmwareKey, sig := Config.ed448Sign Config.firmwareKey (Config.shake256 [2, 3, 9]), body := 9, version := 2, index := 3 }

theorem witness_firmware : Authentic signedImage 3 ∧ ¬Authentic signedImage 4 ∧ Starts { flash := some signedImage, rollback := 3 } ∧
    ¬Starts { flash := some signedImage, flashWhole := false } ∧ ¬Starts { flash := some signedImage, rollback := 4 } := by
  simp [Authentic, Starts, imageOf, signedImage, Config.ed448Check, Config.firmwareDigest]

/-- A part without power, with a token accepted or not. -/
def dark (tk : Option Nat) : State := { State.reset with teth := { pendingToken := tk } }
def first96 : List Nat := List.range 96

/-- Standby power beside main power, and a part whose image does not start. -/
theorem witness_standby : (let t : Tethys := { flash := some signedImage, rollback := 3 }
      Starts t ∧ ({ dark none with teth := t, dev := { (dark none).dev with mainPower := true } } : State).teth.booted = false ∧ t.pendingToken = none) ∧
    ¬Starts { flash := none, flashWhole := false } ∧ ((103 :: first96).filter fun k => decide (k ∉ [5])).length = 96 := by
  refine ⟨⟨by simp [Authentic, Starts, imageOf, signedImage, Config.ed448Check, Config.firmwareDigest], rfl, rfl⟩, by simp [Starts], by decide +kernel⟩

theorem witness_firmware_load : (listening true { loading := some signedImage }).teth.loading = some signedImage ∧
    Listens (listening false { recovery := true, flashWhole := false }) ∧ Listens (listening false { recovery := true, rollback := 1 }) :=
  ⟨rfl, by decide +kernel, by decide +kernel⟩

/-- A token for scope 7 that the debug authority has signed for a Tethys that has given this nonce. -/
def tokenFor (t : Tethys) (nonce : Nat) : Nat :=
  Config.ed448Sign Config.debugAuthorityKey (Config.shake256 [identifier t, t.lifecycle, t.unlocks, nonce, 7]) * 2 ^ 32 + 7

theorem witness_unlock : (listening true { nonce := some 9 }).teth.booted = true ∧ (listening true { nonce := some 9 }).teth.loading = none ∧
    (listening true { nonce := some 9 }).teth.recovery = false ∧ (listening true { nonce := some 9 }).teth.pendingToken = none ∧
    (listening true { nonce := some 9 }).teth.nonce = some 9 ∧ (listening true {}).teth.nonce = none ∧
    ({ listening true { pendingToken := some 7 } with parts := [] } : State).teth.pendingToken = some 7 ∧
    (∀ e ∈ ({ listening true { pendingToken := some 7 } with parts := [] } : State).parts, e.2.exists_ = false) := by decide +kernel

theorem witness_token (t : Tethys) (nonce : Nat) : Config.ed448Check Config.debugAuthorityKey
    (Config.shake256 [identifier t, t.lifecycle, t.unlocks, nonce, tokenFor t nonce % 2 ^ 32]) (tokenFor t nonce / 2 ^ 32) = true := by
  have h1 : tokenFor t nonce % 2 ^ 32 = 7 := by unfold tokenFor; omega
  have h2 : tokenFor t nonce / 2 ^ 32 = Config.ed448Sign Config.debugAuthorityKey (Config.shake256 [identifier t, t.lifecycle, t.unlocks, nonce, 7]) := by
    unfold tokenFor; omega
  rw [h1, h2]; simp [Config.ed448Check]

theorem witness_grant (t : Tethys) (key : Nat) : ∃ token, Config.ed448Check Config.debugAuthorityKey
    (Config.shake256 [identifier t, t.lifecycle, t.unlocks, key]) token = true := ⟨_, by simp [Config.ed448Check]; exact Or.inl rfl⟩

theorem witness_power : (dark none).teth.booted = false ∧ (dark none).teth.pendingToken = none ∧ (dark none).dev.mainPower = false ∧
    ({ dark none with dev := { (dark none).dev with mainPower := true } } : State).dev.mainPower = true ∧ (dark (some 7)).teth.pendingToken = some 7 ∧
    (∀ e ∈ (dark (some 7)).parts, e.2.exists_ = false) ∧ (listening false {}).teth.booted = true ∧ (listening false {}).teth.recovery = false ∧
    (listening false {}).dev.mainPower = false ∧ (∀ k ∈ (103 :: first96) ++ first96, k < 104) ∧ (103 :: first96).Nodup ∧ first96.Nodup ∧
    96 ≤ first96.length ∧ [103].length < 96 ∧ [103].Nodup ∧ ∀ k ∈ [103] ++ [], k < 104 := by decide +kernel

/-- The tiles are numbered; a byte of HBM and one beyond the package are set. -/
def numbered (d : Device → Device) : State :=
  { base with mem := base.mem.write [(2 ^ 39 - 1, 1), (2 ^ 39, 2)], dev := d { base.dev with mainPower := true, good0 := first96, good1 := first96 } }

/-- All 192 tiles are presented. -/
def allThere (s : State) : State := { s with tiles := (List.range 192).map fun n => (n, { present := true }) }

theorem witness_ready : ∀ n, n < 192 → ((allThere (numbered id)).tile n).present = true ∧ ((allThere (numbered id)).tile n).absent = false := by decide +kernel

theorem witness_not_ready : ¬∀ n, n < 192 → ((numbered id).tile n).present = true ∧ ((numbered id).tile n).absent = false := by
  intro h; exact absurd (h 191 (by omega)).1 (by decide +kernel)

theorem witness_bring_up : (numbered id).dev.mainPower = true ∧ (numbered id).dev.failed = false ∧ (numbered id).dev.good0.length = 96 ∧ (numbered id).dev.good1.length = 96 ∧
    (numbered id).dev.cal = false ∧ ¬base.dev.mainPower = true ∧ (numbered fun d => { d with cal := true }).dev.cal = true ∧
    (numbered fun d => { d with cal := true }).dev.memInit = false ∧ Canonical (numbered fun d => { d with cal := true }) ∧
    (numbered id).dev.attachEnded = false ∧ (numbered fun d => { d with memInit := true, attachEnded := true }).dev.ready = false ∧
    (numbered fun d => { d with memInit := true, attachEnded := true }).dev.memInit = true ∧
    (numbered fun d => { d with memInit := true, attachEnded := true }).dev.attachEnded = true := by decide +kernel

/-! #### The whole machine -/

/-- Thread 0 in its first phase before these words, its core to issue. -/
def before (w x : Nat) : State :=
  let s := State.reset.withControlWord (w + x * 2 ^ 32)
  s.setThread { num := 0, pc := 0x100000, sw := swOf 1 0 0 0, maxLevel := 1, begun := true, fetchSnap := s.pubCount }

def beforeTh (w x : Nat) : Thread := { num := 0, pc := 0x100000, sw := swOf 1 0 0 0, maxLevel := 1, begun := true, fetchSnap := (before w x).pubCount }

/-- The state in which the thread chosen fetches a word. -/
def fetching (w x : Nat) : State × Thread := (begun (before w x), (begun (before w x)).begin_ (beforeTh w x))

/-- The state after the fetch of a word. -/
def afterWord (w x : Nat) (pc : Word) : State := ((fetching w x).1.fetchWord (fetching w x).2 pc).1

/-- Every island stands at its highest point. -/
theorem witness_step_runs : (2 ≤ tabGet 7 (before 0x00642800 0).dev.points ((before 0x00642800 0).islandOf 0)) ∧
    ¬(2 ≤ tabGet 7 ({ base with dev := { base.dev with points := (List.range 256).map fun n => (n, 1) } } : State).dev.points 5) ∧
    (∀ e ∈ (begun (before 0x00642800 0)).parts, e.2.ckImage = none) ∧ (before 0x00642800 0).heldBack (beforeTh 0x00642800 0) = false ∧
    (beforeTh 0x00642800 0).num = 4 * 0 + 0 ∧ (begun base).islandsOf .status = [] := by decide +kernel

theorem witness_step_control : turnOf (before 0x00642800 0) = .core 0 ∧ (begun (before 0x00642800 0)).choose 0 = some 0 ∧
    (before 0x00642800 0).thread? 0 = some (beforeTh 0x00642800 0) ∧ (beforeTh 0x00642800 0).pending = [] ∧
    FetchesWord (fetching 0x00642800 0).1 (afterWord 0x00642800 0 0x100000) (fetching 0x00642800 0).2 0x100000 0x00642800 ∧
    needsExtension 0x00642800 = false ∧ decodeControl 0x00642800 0 = .ok (.add 3 4 5) ∧
    ∀ n : Fin 4, ((before 0x00642800 0).tile 0).brk[n].getLsbD 0 = false := by
  refine ⟨by rfl, by decide +kernel, by decide +kernel, by decide +kernel, Prod.ext rfl ?_, by decide +kernel, by decide +kernel, by decide +kernel⟩
  exact (by decide +kernel : ((fetching 0x00642800 0).1.fetchWord (fetching 0x00642800 0).2 0x100000).2 = .ok 0x00642800)

/-- `mx.cfg` with its extension word 3, which the line of its first word brings along. -/
theorem witness_step_extension : needsExtension 0xA2002000 = true ∧
    ((fetching 0xA2002000 3).1.fetchWord (fetching 0xA2002000 3).2 0x100000).2 = .ok 0xA2002000 ∧
    ((afterWord 0xA2002000 3 0x100000).fetchWord (fetching 0xA2002000 3).2 0x100004).2 = .ok 3 ∧
    ((afterWord 0xA2002000 3 0x100000).icache.find? ((afterWord 0xA2002000 3 0x100000).codeHit (fetching 0xA2002000 3).2 0x100004)).isSome = true ∧
    (before 0xA2002000 3).icache = [] ∧ (beforeTh 0xA2002000 3).fetchSnap = (before 0xA2002000 3).pubCount ∧
    decodeControl 0xA2002000 3 = .ok (.mxCfg 4 3) := by decide +kernel

theorem witness_step_element : turnOf (State.reset.withElementWord 0x01027FC1) = .elem 0 0 ∧
    (((State.reset.withElementWord 0x01027FC1).page? 0).any fun p => p.region.isSome && decide (p.image.length = 4096 ∧
      decodeElem (BitVec.ofNat 32 (leNat ((p.image.drop 16).take 4))) = .ok (.iadd 0x004 0x1FF 0 0 1))) = true := ⟨by rfl, by decide +kernel⟩

theorem witness_step_event : turnOf { base with turns := [.event .status] } = .event .status ∧ encodeNat .status = [] := ⟨rfl, rfl⟩

/-- A notify that comes over the attach while it is down, a request behind one that has arrived, and its turn. -/
def asked : State := { base with turns := [.serve], teth := { base.teth with booted := true, inbox := [⟨0, false, some .status⟩] } }

theorem witness_step_gates : overAttach (.queueNotify 0 2) = true ∧ base.dev.attach = false ∧ isRequest .status = true ∧
    asked.teth.working = false ∧ asked.teth.inbox ≠ [] ∧ turnOf asked = .serve ∧ asked.teth.booted = true ∧
    (asked.teth.inbox.head?.bind Request.instr) = some .status ∧ overAttach .status = false := by decide +kernel

/-- A Ready thread 1 of priority 3 beside thread 0, with a wait count. -/
def contenders (wait : Nat) : State := base.setThread { th with num := 1, sw := swOf 1 0 3 0, waitCount := wait }

theorem witness_choice : (contenders 5).choose 0 = some 1 ∧ ReadyAt (contenders 5) 0 1 { th with num := 1, sw := swOf 1 0 3 0, waitCount := 5 } ∧
    (∀ k, ((contenders 5).thread? k).all (fun u => decide (u.waitCount < 1024)) = true ∨ 4 ≤ k) ∧
    (contenders 1024).choose 0 = some 1 ∧ ReadyAt (contenders 1024) 0 1 { th with num := 1, sw := swOf 1 0 3 0, waitCount := 1024 } ∧
    (base.choose 5 = none) := by
  refine ⟨by decide +kernel, by decide +kernel, fun k => ?_, by decide +kernel, by decide +kernel, by decide +kernel⟩
  have h : ∀ k < 4, ((contenders 5).thread? k).all (fun u => decide (u.waitCount < 1024)) = true := by decide +kernel
  exact if hk : k < 4 then .inl (h k hk) else .inr (by omega)

theorem witness_encodings : wellFormed (.add 3 4 5) = true ∧ encodeNat (.add 3 4 5) = [0x00642800] ∧
    wellFormed (.mxCfg 4 3) = true ∧ encodeNat (.mxCfg 4 3) = [0xA2002000, 3] ∧ isElement (.iadd 0x004 0x1FF 0 0 1) = true ∧
    wellFormed (.iadd 0x004 0x1FF 0 0 1) = true ∧ encodeNat (.iadd 0x004 0x1FF 0 0 1) = [0x01027FC1] ∧
    decodeElem 0x01027FC1 = .ok (.iadd 0x004 0x1FF 0 0 1) ∧ decodeControl 0xA2002000 3 = .ok (.mxCfg 4 3) := by decide +kernel

theorem witness_step_canonical : Canonical (before 0x00642800 0) ∧
    (match step (before 0x00642800 0) with | .next u => decide (Canonical u) | _ => false) = true := ⟨by decide +kernel, by decide +kernel⟩

/-- R1, R91: `add` writes the sum of its registers, wrapping, and moves the program counter by 4. -/
theorem test_step_add_wraps : (match step ((before 0x00642800 0).setThread (((beforeTh 0x00642800 0).setReg 4 allOnes).setReg 5 2)) with
    | .next u => (u.thread? 0).map fun t => (t.reg 3, t.pc) | _ => none) = some (1, 0x100004) := by decide +kernel


end Sys2Proof.Tests
end

section
/-! The scalar instructions and the control transfers (R92 to R103): what each shared operation of theirs keeps of
the state, the values they write, and the settled statements. -/

/-! ### Threads -/

namespace Sys2Proof.Machine

@[simp] theorem Thread.setReg_num (t : Thread) (r : Nat) (v : Word) : (t.setReg r v).num = t.num := by
  unfold Thread.setReg; split <;> rfl
@[simp] theorem Thread.setReg_pc (t : Thread) (r : Nat) (v : Word) : (t.setReg r v).pc = t.pc := by
  unfold Thread.setReg; split <;> rfl
@[simp] theorem Thread.setPred_num (t : Thread) (p : Nat) (v : Bool) : (t.setPred p v).num = t.num := by
  unfold Thread.setPred; split <;> rfl

/-- An instruction of one word ends with the thread 4 bytes further on (R26). -/
theorem State.advance_eq_setThread (s : State) (t : Thread) {i : Instr} (hl : lengthBytes i = 4) :
    s.advance t i = s.setThread (Claims.goesOn t 4) := by
  simp only [State.advance, Thread.nextPc, hl, Claims.goesOn]

end Sys2Proof.Machine

namespace Sys2Proof.Claims

open Sys2Proof Sys2Proof.Machine

section

variable {s u : State} {t t' t'' : Thread} {i : Instr}

/-! ### The trace unit -/

theorem TraceOnly.refl (a : Tile) : TraceOnly a a := rfl

theorem TraceOnly.trans {a b c : Tile} (h : TraceOnly a b) (h' : TraceOnly b c) : TraceOnly a c := by
  unfold TraceOnly at *
  rw [h', h]

theorem traceOnly_traceRecord (tl : Tile) (c : Bool) (r : TraceRec) : TraceOnly tl (tl.traceRecord c r) :=
  Tile.traceRecord_frame tl c r

/-- A trace event writes the trace unit of the thread's own tile alone (R386). -/
theorem traceOnly_trace (s : State) (t : Thread) (k sub : Nat) (pc : Word) (q : Half) (d : Word) (e : List (Nat × Word)) (n : Nat) :
    TraceOnly (s.tile n) ((s.trace t k sub pc q d e).tile n) := by
  unfold State.trace
  dsimp only
  split
  · exact .refl _
  · by_cases hn : n = t.tile
    · subst hn
      rw [State.tile_setTile]
      generalize htl : (if bit _ (1 + k) then _ else _ : Tile) = tl
      have recorded : TraceOnly (s.tile t.tile) tl := by
        rw [← htl]
        split
        · exact traceOnly_traceRecord ..
        · exact .refl _
      split
      · exact recorded
      · split
        · exact recorded
        · exact recorded.trans rfl
    · rw [State.tile_setTile_ne _ _ hn]
      exact .refl _

/-! ### What an instruction's own effect keeps, operation by operation -/

/-- The issue of an instruction changes its thread alone (R29, R30). -/
theorem onlyThread_issuedIn (s : State) (t : Thread) : OnlyThread s (issuedIn s t) t (issuedBy s t) := by
  rw [OnlyThread, issuedBy_num]
  exact issuedIn_frame s t

theorem OnlyThread.chargeThread (h : OnlyThread s u t t') (x : Thread) (cls n : Nat) :
    OnlyThread s (u.chargeThread x cls n) t t' := by
  unfold OnlyThread at *
  rw [State.chargeThread_frame, h]

theorem OnlyThread.setThread (h : OnlyThread s u t t') (hn : t''.num = t'.num) :
    OnlyThread s (u.setThread t'') t t'' := by
  unfold OnlyThread at *
  rw [h]
  simp [State.setThread, hn]

theorem OnlyThread.threadAndTrace (h : OnlyThread s u t t') : ThreadAndTrace s u t t' := by
  unfold OnlyThread at h
  refine ⟨?_, fun n => ?_⟩
  · rw [h]
  · rw [h]; exact .refl _

theorem ThreadAndTrace.trace (h : ThreadAndTrace s u t t') (x : Thread) (k sub : Nat) (pc : Word) (q : Half) (d : Word)
    (e : List (Nat × Word)) : ThreadAndTrace s (u.trace x k sub pc q d e) t t' := by
  obtain ⟨hu, hn⟩ := h
  refine ⟨?_, fun n => (hn n).trans (traceOnly_trace ..)⟩
  rw [State.trace_frame, hu]

theorem ThreadAndTrace.setThread (h : ThreadAndTrace s u t t') (hn : t''.num = t'.num) :
    ThreadAndTrace s (u.setThread t'') t t'' := by
  obtain ⟨hu, htr⟩ := h
  refine ⟨?_, htr⟩
  rw [hu]
  simp [State.setThread, hn]

/-! ### The shared operations of the scalar instructions -/

/-- A register instruction of one word whose work before its result changes its thread alone. -/
theorem writes_of_result {d : BitVec 5} {v : Word} (hx : exec i s = .next (u.result (issuedBy s t) i d v))
    (hu : OnlyThread s u t (issuedBy s t)) (hl : lengthBytes i = 4) : Writes s t i d v := by
  refine ⟨_, hx, ?_⟩
  rw [State.result, State.advance_eq_setThread _ _ hl]
  exact hu.setThread (by simp [goesOn])

theorem writes_of_alu1 {d a : BitVec 5} {f : Word → Word} {v : Word} (ht : Issues s t) (hw : wellFormed i = true)
    (hl : lengthBytes i = 4) (hx : exec i s = alu1 i d a f s) (hv : f (t.reg a.toNat) = v) : Writes s t i d v := by
  rw [alu1, issue_next ht.1 ht.2 hw (Nat.zero_le _), issuedBy_reg, hv] at hx
  exact writes_of_result hx (onlyThread_issuedIn s t) hl

theorem writes_of_alu2 {d a b : BitVec 5} {f : Word → Word → Word} {v : Word} (ht : Issues s t) (hw : wellFormed i = true)
    (hl : lengthBytes i = 4) (hx : exec i s = alu2 i d a b f s) (hv : f (t.reg a.toNat) (t.reg b.toNat) = v) :
    Writes s t i d v := by
  rw [alu2, issue_next ht.1 ht.2 hw (Nat.zero_le _), issuedBy_reg, issuedBy_reg, hv] at hx
  exact writes_of_result hx (onlyThread_issuedIn s t) hl

theorem writes_of_aluCharged {cls : Nat} {d a b : BitVec 5} {f : Word → Word → Word} {v : Word} (ht : Issues s t)
    (hw : wellFormed i = true) (hl : lengthBytes i = 4) (hx : exec i s = aluCharged i cls d a b f s)
    (hv : f (t.reg a.toNat) (t.reg b.toNat) = v) : Writes s t i d v := by
  rw [aluCharged, issue_next ht.1 ht.2 hw (Nat.zero_le _), issuedBy_reg, issuedBy_reg, hv] at hx
  exact writes_of_result hx ((onlyThread_issuedIn s t).chargeThread _ _ _) hl

/-- A compare writes its predicate, which the trace unit may record (R97, R386). -/
theorem threadAndTrace_of_compare {p a b : BitVec 5} {c : Word → Word → Bool} {v : Bool} (ht : Issues s t)
    (hw : wellFormed i = true) (hl : lengthBytes i = 4) (hx : exec i s = Machine.compare i p a b c s)
    (hv : c (t.reg a.toNat) (t.reg b.toNat) = v) :
    ∃ u, exec i s = .next u ∧ ThreadAndTrace s u t (goesOn ((issuedBy s t).setPred p.toNat v) 4) := by
  unfold Machine.compare at hx
  rw [issue_next ht.1 ht.2 hw (Nat.zero_le _), issuedBy_reg, issuedBy_reg, hv] at hx
  refine ⟨_, hx, ?_⟩
  rw [State.advance_eq_setThread _ _ hl]
  exact ((onlyThread_issuedIn s t).threadAndTrace.trace ..).setThread (by simp [goesOn])

/-! ### The values of the scalar instructions -/

theorem add_eq_word (x y : Word) : x + y = word (x.toNat + y.toNat) := by simp [word, BitVec.ofNat_add]

theorem mul_eq_word (x y : Word) : x * y = word (x.toNat * y.toNat) := by simp [word, BitVec.ofNat_mul]

theorem sub_eq_ofInt (x y : Word) : x - y = BitVec.ofInt 64 (x.toInt - y.toInt) := by
  rw [Int.sub_eq_add_neg, BitVec.ofInt_add, BitVec.ofInt_neg, BitVec.ofInt_toInt, BitVec.ofInt_toInt, BitVec.sub_eq_add_neg]

/-- R94: the quotient, with the results of a divisor 0 and of -2^63 / -1. -/
theorem divide_eq (x y : Word) : divide x y = if y = 0 then BitVec.ofInt 64 (-1)
    else if x.toInt = -2 ^ 63 ∧ y.toInt = -1 then BitVec.ofInt 64 (-2 ^ 63) else BitVec.ofInt 64 (x.toInt.tdiv y.toInt) := by
  unfold divide
  split_ifs with h0 h
  · rfl
  · rw [← h.1, BitVec.ofInt_toInt]
  · rfl

/-- R94: the remainder is what the quotient leaves. -/
theorem remainder_eq (x y : Word) : remainder x y = if y = 0 then x
    else if x.toInt = -2 ^ 63 ∧ y.toInt = -1 then 0 else BitVec.ofInt 64 (x.toInt - y.toInt * x.toInt.tdiv y.toInt) := by
  rw [← Int.tmod_def]; rfl

theorem shiftLeft_eq_word (x : Word) (n : Nat) : x <<< n = word (x.toNat * 2 ^ n) :=
  BitVec.eq_of_toNat_eq (by simp [word, Nat.shiftLeft_eq])

/-- R96: the scaled sum of `lea`. -/
theorem add_shiftLeft_eq_word (x y : Word) (n : Nat) : x + y <<< n = word (x.toNat + y.toNat * 2 ^ n) :=
  BitVec.eq_of_toNat_eq (by simp [word, Nat.shiftLeft_eq])

theorem ushiftRight_eq_word (x : Word) (n : Nat) : x >>> n = word (x.toNat / 2 ^ n) := by
  rw [← Nat.shiftRight_eq_div_pow, ← BitVec.toNat_ushiftRight, word, BitVec.ofNat_toNat, BitVec.setWidth_eq]

theorem sshiftRight_eq_ofInt (x : Word) (n : Nat) : x.sshiftRight n = BitVec.ofInt 64 (x.toInt / 2 ^ n) := by
  simp [BitVec.sshiftRight, Int.shiftRight_eq_div_pow]

theorem setWidth_setWidth_eq_word (x : Word) (n : Nat) : (x.setWidth n).setWidth 64 = word (x.toNat % 2 ^ n) :=
  BitVec.eq_of_toNat_eq (by simp [word])

/-- A strict order selects as the weak one does, where both results agree on equal sources. -/
theorem ite_lt_eq_ite_le {β : Type} [LinearOrder β] {g : Word → β} (hg : Function.Injective g) {x y a b : Word}
    (hab : x = y → a = b) : (if g x < g y then a else b) = if g x ≤ g y then a else b := by
  rcases eq_or_ne x y with h | h
  · simp [hab h]
  · simp [lt_iff_le_and_ne, hg.ne h]

theorem ite_slt_eq_ite_toInt_le {x y a b : Word} (hab : x = y → a = b) :
    (if x.slt y then a else b) = if x.toInt ≤ y.toInt then a else b := by
  simpa only [BitVec.slt_iff_toInt_lt] using ite_lt_eq_ite_le (g := BitVec.toInt) (fun _ _ => BitVec.eq_of_toInt_eq) hab

theorem ite_ult_eq_ite_toNat_le {x y a b : Word} (hab : x = y → a = b) :
    (if x.ult y then a else b) = if x.toNat ≤ y.toNat then a else b := by
  simpa only [BitVec.ult_iff_lt, BitVec.lt_def] using ite_lt_eq_ite_le (g := BitVec.toNat) (fun _ _ => BitVec.eq_of_toNat_eq) hab

/-- The number of values `false` that a function begins with, up to `m`. -/
theorem length_takeWhile_false (f : Nat → Bool) (m : Nat) :
    (((List.range m).map f).takeWhile (· = false)).length = (List.range m).findIdx f := by
  rw [List.takeWhile_eq_take_findIdx_not, List.length_take, min_eq_left List.findIdx_le_length, List.findIdx_map]
  congr 1
  ext k
  simp

/-- The first `true` of a function below `m`, or `m` itself. -/
theorem findIdx_range (f : Nat → Bool) (m : Nat) : (List.range m).findIdx f ≤ m ∧
    (∀ k < (List.range m).findIdx f, f k = false) ∧ ((List.range m).findIdx f < m → f ((List.range m).findIdx f) = true) := by
  refine ⟨by simpa using List.findIdx_le_length (xs := List.range m) (p := f), fun k hk => ?_, fun h => ?_⟩
  · simpa using List.not_of_lt_findIdx hk
  · have found := List.findIdx_getElem (xs := List.range m) (p := f) (w := by simpa using h)
    rwa [List.getElem_range] at found

theorem leadingZeros_eq (x : Word) : leadingZeros x = word ((List.range 64).findIdx fun k => x.getLsbD (63 - k)) :=
  congrArg word (length_takeWhile_false _ _)

theorem trailingZeros_eq (x : Word) : trailingZeros x = word ((List.range 64).findIdx x.getLsbD) :=
  congrArg word (length_takeWhile_false _ _)

theorem ones_eq (x : Word) : ones x = word ((List.range 64).countP x.getLsbD) := by
  rw [List.countP_eq_length_filter]; rfl

/-- R95: the immediate goes below the shifted destination. -/
theorem shiftLeft_or_eq_word (x : Word) (imm : BitVec 16) :
    x <<< 16 ||| imm.setWidth 64 = word (x.toNat * 2 ^ 16 + imm.toNat) := by
  have disjoint : x <<< 16 &&& imm.setWidth 64 = 0#64 := by
    ext k hk
    rcases lt_or_ge k 16 with h | h
    · simp [h]
    · simp [BitVec.getLsbD_of_ge imm k h]
  rw [← BitVec.add_eq_or_of_and_eq_zero _ _ disjoint, shiftLeft_eq_word, add_eq_word]
  exact BitVec.eq_of_toNat_eq (by simp [word])

/-- R95: an immediate is added with its sign. -/
theorem add_sextTo_eq_ofInt (x : Word) (imm : BitVec 16) : x + sextTo 64 imm = BitVec.ofInt 64 (x.toInt + imm.toInt) := by
  rw [BitVec.ofInt_add, BitVec.ofInt_toInt]; rfl

/-- R98: the bits of `bfi`'s value. -/
theorem getLsbD_insertField (old new : Word) (pos width : Nat) {k : Nat} (hk : k < 64) :
    (insertField old new pos width).getLsbD k =
      if pos ≤ k ∧ k < pos + width then new.getLsbD (k - pos) else old.getLsbD k := by
  have mask : (word ((2 ^ width - 1) * 2 ^ pos)).getLsbD k = decide (pos ≤ k ∧ k < pos + width) := by
    rw [word, BitVec.getLsbD_ofNat, Nat.testBit_mul_two_pow, Nat.testBit_two_pow_sub_one, decide_eq_true hk, Bool.true_and,
      ← Bool.decide_and]
    exact decide_eq_decide.2 (by omega)
  simp only [insertField, BitVec.getLsbD_or, BitVec.getLsbD_and, BitVec.getLsbD_not, BitVec.getLsbD_shiftLeft, mask]
  split_ifs with h
  · simp [h, hk]
  · simp [h, hk]

theorem condGe_eq (x y : Word) : condGe x y = decide (y.toInt ≤ x.toInt) := by
  simp [condGe, BitVec.slt_eq_decide, ← decide_not]

theorem condGeu_eq (x y : Word) : condGeu x y = decide (y.toNat ≤ x.toNat) := by
  simp [condGeu, BitVec.ult_eq_decide, ← decide_not]

/-! ### The scalar instructions, form by form -/

theorem binaryForms_write : ∀ f ∈ binaryForms, ∀ (s : State) (t : Thread) (d a b : BitVec 5), Issues s t →
    Writes s t (f.1 d a b) d (f.2 (t.reg a.toNat) (t.reg b.toNat)) := by
  simp only [binaryForms, List.forall_mem_cons, List.not_mem_nil, false_imp_iff, implies_true, and_true]
  exact ⟨
    fun _ _ _ _ _ ht => writes_of_alu2 (f := (· + ·)) ht rfl rfl rfl (add_eq_word ..),
    fun _ _ _ _ _ ht => writes_of_alu2 (f := (· - ·)) ht rfl rfl rfl (sub_eq_ofInt ..),
    fun _ _ _ _ _ ht => writes_of_aluCharged (f := (· * ·)) ht rfl rfl rfl (mul_eq_word ..),
    fun _ _ _ _ _ ht => writes_of_aluCharged (f := mulHigh) ht rfl rfl rfl rfl,
    fun _ _ _ _ _ ht => writes_of_aluCharged (f := divide) ht rfl rfl rfl (divide_eq ..),
    fun _ _ _ _ _ ht => writes_of_aluCharged (f := remainder) ht rfl rfl rfl (remainder_eq ..),
    fun _ _ _ _ _ ht => writes_of_alu2 (f := (· &&& ·)) ht rfl rfl rfl rfl,
    fun _ _ _ _ _ ht => writes_of_alu2 (f := (· ||| ·)) ht rfl rfl rfl rfl,
    fun _ _ _ _ _ ht => writes_of_alu2 (f := (· ^^^ ·)) ht rfl rfl rfl rfl,
    fun _ _ _ _ _ ht => writes_of_alu2 (f := fun x y => x &&& ~~~y) ht rfl rfl rfl rfl,
    fun _ _ _ _ _ ht => writes_of_alu2 (f := fun x y => x <<< (y.toNat % 64)) ht rfl rfl rfl (shiftLeft_eq_word ..),
    fun _ _ _ _ _ ht => writes_of_alu2 (f := fun x y => x >>> (y.toNat % 64)) ht rfl rfl rfl (ushiftRight_eq_word ..),
    fun _ _ _ _ _ ht => writes_of_alu2 (f := fun x y => x.sshiftRight (y.toNat % 64)) ht rfl rfl rfl (sshiftRight_eq_ofInt ..),
    fun _ _ _ _ _ ht => writes_of_alu2 (f := fun x y => if x.slt y then x else y) ht rfl rfl rfl (ite_slt_eq_ite_toInt_le id),
    fun _ _ _ _ _ ht => writes_of_alu2 (f := fun x y => if x.slt y then y else x) ht rfl rfl rfl (ite_slt_eq_ite_toInt_le Eq.symm),
    fun _ _ _ _ _ ht => writes_of_alu2 (f := fun x y => if x.ult y then x else y) ht rfl rfl rfl (ite_ult_eq_ite_toNat_le id),
    fun _ _ _ _ _ ht => writes_of_alu2 (f := fun x y => if x.ult y then y else x) ht rfl rfl rfl (ite_ult_eq_ite_toNat_le Eq.symm)⟩

theorem extensionForms_write : ∀ f ∈ extensionForms, ∀ (s : State) (t : Thread) (d a : BitVec 5), Issues s t →
    Writes s t (f.1 d a) d (f.2 (t.reg a.toNat)) := by
  simp only [extensionForms, List.forall_mem_cons, List.not_mem_nil, false_imp_iff, implies_true, and_true]
  exact ⟨
    fun _ _ _ _ ht => writes_of_alu1 (f := fun x => sextTo 64 (x.setWidth 8)) ht rfl rfl rfl rfl,
    fun _ _ _ _ ht => writes_of_alu1 (f := fun x => sextTo 64 (x.setWidth 16)) ht rfl rfl rfl rfl,
    fun _ _ _ _ ht => writes_of_alu1 (f := fun x => sextTo 64 (x.setWidth 32)) ht rfl rfl rfl rfl,
    fun _ _ _ _ ht => writes_of_alu1 (f := fun x => (x.setWidth 8).setWidth 64) ht rfl rfl rfl (setWidth_setWidth_eq_word ..),
    fun _ _ _ _ ht => writes_of_alu1 (f := fun x => (x.setWidth 16).setWidth 64) ht rfl rfl rfl (setWidth_setWidth_eq_word ..),
    fun _ _ _ _ ht => writes_of_alu1 (f := fun x => (x.setWidth 32).setWidth 64) ht rfl rfl rfl (setWidth_setWidth_eq_word ..)⟩

theorem clz_writes {d a : BitVec 5} (ht : Issues s t) : ∃ n, n ≤ 64 ∧ (∀ k, k < n → (t.reg a.toNat).getMsbD k = false) ∧
    (n < 64 → (t.reg a.toNat).getMsbD n = true) ∧ Writes s t (.clz d a) d (word n) := by
  obtain ⟨hle, hzero, hone⟩ := findIdx_range (fun k => (t.reg a.toNat).getLsbD (63 - k)) 64
  refine ⟨_, hle, fun k hk => ?_, fun h => ?_, writes_of_alu1 (f := leadingZeros) ht rfl rfl rfl (leadingZeros_eq _)⟩
  · simpa [BitVec.getMsbD] using fun _ => hzero k hk
  · simpa [BitVec.getMsbD] using ⟨h, hone h⟩

theorem ctz_writes {d a : BitVec 5} (ht : Issues s t) : ∃ n, n ≤ 64 ∧ (∀ k, k < n → (t.reg a.toNat).getLsbD k = false) ∧
    (n < 64 → (t.reg a.toNat).getLsbD n = true) ∧ Writes s t (.ctz d a) d (word n) := by
  obtain ⟨hle, hzero, hone⟩ := findIdx_range (t.reg a.toNat).getLsbD 64
  exact ⟨_, hle, hzero, hone, writes_of_alu1 (f := trailingZeros) ht rfl rfl rfl (trailingZeros_eq _)⟩

theorem bfi_writes {d a : BitVec 5} {w p : BitVec 6} (ht : Issues s t) (hp : p.toNat + w.toNat + 1 ≤ 64) :
    ∃ v : Word, (∀ k, k < 64 → v.getLsbD k =
        if p.toNat ≤ k ∧ k ≤ p.toNat + w.toNat then (t.reg a.toNat).getLsbD (k - p.toNat) else (t.reg d.toNat).getLsbD k) ∧
      Writes s t (.bfi d a w p) d v :=
  ⟨_, fun _ hk => by rw [getLsbD_insertField _ _ _ _ hk, ← Nat.add_assoc]; simp only [Nat.lt_succ_iff],
    writes_of_alu2 (f := fun old x => insertField old x p.toNat (w.toNat + 1)) ht (decide_eq_true hp) rfl rfl rfl⟩

/-- R99: `sel` reads a predicate or its complement. -/
theorem sel_writes {d a b : BitVec 5} {n : BitVec 1} {p : BitVec 3} (ht : Issues s t) : Writes s t (.sel d a b n p) d
    (if t.pred p.toNat ≠ decide (n = 1) then t.reg a.toNat else t.reg b.toNat) := by
  have hx : exec (.sel d a b n p) s = execSel d a b n p s := rfl
  rw [execSel, issue_next ht.1 ht.2 rfl (Nat.zero_le _)] at hx
  simp only [issuedBy_reg, issuedBy_pred, ← Bool.bne_eq_xor, bne_iff_ne] at hx
  exact writes_of_result hx (onlyThread_issuedIn s t) rfl

theorem compareForms_write : ∀ f ∈ compareForms, ∀ (s : State) (t : Thread) (p a b : BitVec 5), Issues s t → p.toNat ≤ 7 →
    ∃ u, exec (f.1 p a b) s = .next u ∧
      ThreadAndTrace s u t (goesOn ((issuedBy s t).setPred p.toNat (f.2 (t.reg a.toNat) (t.reg b.toNat))) 4) := by
  simp only [compareForms, List.forall_mem_cons, List.not_mem_nil, false_imp_iff, implies_true, and_true]
  exact ⟨
    fun _ _ _ _ _ ht hp => threadAndTrace_of_compare (c := condEq) ht (decide_eq_true hp) rfl rfl rfl,
    fun _ _ _ _ _ ht hp => threadAndTrace_of_compare (c := condNe) ht (decide_eq_true hp) rfl rfl rfl,
    fun _ _ _ _ _ ht hp => threadAndTrace_of_compare (c := condLt) ht (decide_eq_true hp) rfl rfl BitVec.slt_eq_decide,
    fun _ _ _ _ _ ht hp => threadAndTrace_of_compare (c := condGe) ht (decide_eq_true hp) rfl rfl (condGe_eq ..),
    fun _ _ _ _ _ ht hp => threadAndTrace_of_compare (c := condLtu) ht (decide_eq_true hp) rfl rfl BitVec.ult_eq_decide,
    fun _ _ _ _ _ ht hp => threadAndTrace_of_compare (c := condGeu) ht (decide_eq_true hp) rfl rfl (condGeu_eq ..)⟩

/-! ### Control transfers -/

/-- A branch offset counts words (R28). -/
theorem target_eq_wordsFrom (t : Thread) {w : Nat} (o : BitVec w) : target t.pc o = wordsFrom t o.toInt := by
  rw [wordsFrom, BitVec.ofInt_mul]; rfl

theorem goesTo_of_jumpTo {v : Word} (hx : exec i s = .next ((issuedIn s t).jumpTo t' i v)) (hn : t'.num = t.num) :
    GoesTo s t i t' v :=
  ⟨_, hx, ((onlyThread_issuedIn s t).threadAndTrace.trace ..).setThread (by simp [hn])⟩

/-- A transfer that is not taken goes on at the next word. -/
theorem goesTo_of_advance (hx : exec i s = .next ((issuedIn s t).advance t' i)) (hn : t'.num = t.num) (hpc : t'.pc = t.pc)
    (hl : lengthBytes i = 4) : GoesTo s t i t' (t.pc + 4) := by
  rw [State.advance_eq_setThread _ _ hl, goesOn, hpc] at hx
  exact ⟨_, hx, ((onlyThread_issuedIn s t).setThread (by simp [hn])).threadAndTrace⟩

theorem bc_goesTo {p : BitVec 3} {n : BitVec 1} (o : BitVec 22) (ht : Issues s t) (hpn : ¬(p = 0 ∧ n = 0)) :
    GoesTo s t (.bc p n o) (issuedBy s t) (if t.pred p.toNat ≠ decide (n = 1) then wordsFrom t o.toInt else t.pc + 4) := by
  have hw : wellFormed (.bc p n o) = true :=
    decide_eq_true fun h => hpn ⟨BitVec.eq_of_toNat_eq h.1, BitVec.eq_of_toNat_eq h.2⟩
  have hx : exec (.bc p n o) s = execBc p n o s := rfl
  rw [execBc, issue_next ht.1 ht.2 hw (Nat.zero_le _)] at hx
  simp only [issuedBy_pred, issuedBy_pc, target_eq_wordsFrom, ← Bool.bne_eq_xor, bne_iff_ne] at hx
  split_ifs at hx ⊢
  · exact goesTo_of_jumpTo hx (issuedBy_num s t)
  · exact goesTo_of_advance hx (issuedBy_num s t) (issuedBy_pc s t) rfl

theorem br_goesTo (o : BitVec 22) (ht : Issues s t) : GoesTo s t (.br o) (issuedBy s t) (wordsFrom t o.toInt) := by
  have hx : exec (.br o) s = execBr o s := rfl
  rw [execBr, issue_next ht.1 ht.2 rfl (Nat.zero_le _), issuedBy_pc, target_eq_wordsFrom] at hx
  exact goesTo_of_jumpTo hx (issuedBy_num s t)

theorem call_goesTo (o : BitVec 22) (ht : Issues s t) :
    GoesTo s t (.call o) ((issuedBy s t).setReg 31 (t.pc + 4)) (wordsFrom t o.toInt) := by
  have hx : exec (.call o) s = execCall o s := rfl
  rw [execCall, issue_next ht.1 ht.2 rfl (Nat.zero_le _), issuedBy_pc, target_eq_wordsFrom] at hx
  exact goesTo_of_jumpTo hx (by simp)

/-- R102: a register jump to an aligned address. -/
theorem goesTo_of_jumpReg {r : Nat} (ht : Issues s t) (hw : wellFormed i = true) (hx : exec i s = jumpReg i r s)
    (hal : (t.reg r).toNat % 4 = 0) : GoesTo s t i (issuedBy s t) (t.reg r) := by
  rw [jumpReg, issue_next ht.1 ht.2 hw (Nat.zero_le _), issuedBy_reg, if_neg (not_not.2 hal)] at hx
  exact goesTo_of_jumpTo hx (issuedBy_num s t)

theorem loop_goesTo (a : BitVec 5) (imm : BitVec 16) (ht : Issues s t) :
    GoesTo s t (.loop a imm) ((issuedBy s t).setReg a.toNat (t.reg a.toNat - 1))
      (if t.reg a.toNat ≠ 1 then wordsFrom t imm.toInt else t.pc + 4) := by
  have hx : exec (.loop a imm) s = execLoop a imm s := rfl
  rw [execLoop, issue_next ht.1 ht.2 rfl (Nat.zero_le _)] at hx
  simp only [issuedBy_reg, issuedBy_pc, target_eq_wordsFrom, sub_ne_zero] at hx
  split_ifs at hx ⊢
  · exact goesTo_of_jumpTo hx (by simp)
  · exact goesTo_of_advance hx (by simp) (by simp) rfl

end

/-! ### The settled statements -/

/-- Settles O1: each form is one of the shared register operations, with the value its rule gives. -/
theorem scalarInstructionsWriteTheirValue : Obligations.ScalarInstructionsWriteTheirValue := by
  refine ⟨⟨binaryForms_write, extensionForms_write⟩,
    ⟨fun s t d a ht => ⟨clz_writes ht, ctz_writes ht, ?popc⟩, fun s t d a w p ht hp => bfi_writes ht hp⟩,
    fun s t d a b ht => ⟨fun imm => ⟨?addi, ?movi, ?movhi⟩, fun sh => ?lea, fun w p hp => ?bfx, fun n p => sel_writes ht⟩,
    compareForms_write⟩
  case popc => exact writes_of_alu1 (f := ones) ht rfl rfl rfl (ones_eq _)
  case addi => exact writes_of_alu1 (f := (· + sextTo 64 imm)) ht rfl rfl rfl (add_sextTo_eq_ofInt ..)
  case movi => exact writes_of_alu1 (a := 0) (f := fun _ => sextTo 64 imm) ht rfl rfl rfl rfl
  case movhi => exact writes_of_alu1 (f := fun x => x <<< 16 ||| imm.setWidth 64) ht rfl rfl rfl (shiftLeft_or_eq_word ..)
  case lea => exact writes_of_alu2 (f := fun x y => x + y <<< sh.toNat) ht rfl rfl rfl (add_shiftLeft_eq_word ..)
  case bfx =>
    exact writes_of_alu1 (f := fun x => word (x.toNat / 2 ^ p.toNat % 2 ^ (w.toNat + 1))) ht (decide_eq_true hp) rfl rfl rfl

/-- Settles O2: every transfer is `jumpTo` its target or, where it is not taken, `advance`. -/
theorem transfersGoToTheirTarget : Obligations.TransfersGoToTheirTarget :=
  ⟨fun _ _ _ _ _ => ⟨rfl, rfl, rfl, rfl⟩, fun _ _ ht =>
    ⟨fun _ _ o hpn => bc_goesTo o ht hpn, fun o => ⟨br_goesTo o ht, call_goesTo o ht⟩,
      fun _ hal => goesTo_of_jumpReg ht rfl rfl hal, fun hal => goesTo_of_jumpReg ht rfl rfl hal,
      fun a imm => loop_goesTo a imm ht⟩⟩

end Sys2Proof.Claims
end

section
/-! The routing and register elements (R170 to R176): the firing rule of every element with its operands and room,
the tokens of each operation, and the settled statement. -/

namespace Sys2Proof.Machine

/-! ### Pages: what the moves of tokens keep -/

@[simp] theorem Page.setQueue_id (p : Page) (slot q : Nat) (v : Queue) : (p.setQueue slot q v).id = p.id := rfl
@[simp] theorem Page.setElem_id (p : Page) (slot : Nat) (v : ElemReg) : (p.setElem slot v).id = p.id := rfl
@[simp] theorem Page.setQueue_flags (p : Page) (slot q : Nat) (v : Queue) :
    (p.setQueue slot q v).st.flags = p.st.flags := rfl
@[simp] theorem Page.setElem_flags (p : Page) (slot : Nat) (v : ElemReg) : (p.setElem slot v).st.flags = p.st.flags := rfl

@[simp] theorem Page.consume_id (p : Page) (slot : Nat) (srcs : List Src) : (p.consume slot srcs).id = p.id := by
  induction srcs generalizing p with
  | nil => rfl
  | cons x r ih => cases x <;> simp [Page.consume, ih]

@[simp] theorem Page.consume_flags (p : Page) (slot : Nat) (srcs : List Src) :
    (p.consume slot srcs).st.flags = p.st.flags := by
  induction srcs generalizing p with
  | nil => rfl
  | cons x r ih => cases x <;> simp [Page.consume, ih]

@[simp] theorem Page.send_id (p : Page) (producer : Nat) (tok : Token) (d : Dest) : (p.send producer tok d).id = p.id := by
  cases d with
  | queue slot q => simp only [Page.send]; split_ifs <;> rfl
  | port _ => rfl
  | rsu _ _ => rfl
  | discard => rfl

@[simp] theorem Page.sendAll_id (p : Page) (producer slot c : Nat) (toks : List Token) :
    (p.sendAll producer slot c toks).id = p.id := by
  unfold Page.sendAll
  split
  · rfl
  · next d _ =>
    induction toks generalizing p with
    | nil => rfl
    | cons k r ih => rw [List.foldl_cons, ih, Page.send_id]

/-- A charge of a page's work touches meters and accounts alone. -/
theorem State.chargePage_frame (s : State) (p : Page) (c n : Nat) :
    s.chargePage p c n = { s with meters := (s.chargePage p c n).meters, accounts := (s.chargePage p c n).accounts } :=
  State.charge_frame ..

/-- An element that may fire, with its operands at hand and room for what it emits, fires (R157). -/
theorem elemFire_fired {s : State} {p : Page} {i : Instr} {a b : BitVec 9} {srcs : List Src} {ops : List Token}
    {f : Page → List Token → ElemReg → Fire} (hready : Claims.ElementReady s p i a b)
    (hops : operands p s.curSlot srcs = some ops) {r : Fire} (hr : f p ops (p.elem s.curSlot) = r)
    (hroom : s.roomFor p s.curSlot [(a.toNat, r.a.length + r.reg.second.toList.length, r.a ++ r.reg.second.toList),
      (b.toNat, r.b.length + r.reg.second.toList.length, r.b ++ r.reg.second.toList)] = some true) :
    elemFire i a b srcs s f = .next (s.fired p s.curSlot srcs a.toNat b.toNat r) := by
  obtain ⟨hpage, hregion, hbusy, hwf⟩ := hready
  have hresident : p.region.isNone = false := by simpa using hregion
  simp [elemFire, hpage, hresident, hbusy, hwf, hops, hr, hroom]

/-! ### Tokens -/

@[simp] theorem anyNull_one (x : Token) : anyNull [x] = x.n := by simp [anyNull]
@[simp] theorem anyNull_two (x y : Token) : anyNull [x, y] = (x.n || y.n) := by simp [anyNull]
@[simp] theorem opn_zero (x : Token) (ops : List Token) : opn (x :: ops) 0 = x := rfl
@[simp] theorem opn_one (x y : Token) (ops : List Token) : opn (x :: y :: ops) 1 = y := rfl
@[simp] theorem highE_two (x y : Token) : highE [x, y] = max x.e y.e := by simp [highE]

end Sys2Proof.Machine

namespace Sys2Proof.Claims

open Sys2Proof Sys2Proof.Machine

section

variable {s : State} {p : Page} {i : Instr} {a b : BitVec 9} {q : BitVec 2} {n : BitVec 1} {v : BitVec 3} {x y : Token}
  {ops : List Token}

/-! ### The tokens and the rounding mode in the statements' words -/

theorem tagA_eq (ops : List Token) : tagA ops = (ops.head?.getD {}).t := by cases ops <;> rfl

theorem outToken_eq_resultOf (ops : List Token) (v : Half) : outToken ops v = resultOf ops v := by
  rw [outToken, tagA_eq]; rfl

theorem nullToken_eq_resultOf (ops : List Token) : nullToken ops = { resultOf ops 0 with n := true } := by
  rw [nullToken, tagA_eq]; rfl

theorem nullPolicy_eq_nullOut (n : BitVec 1) (ops : List Token) : nullPolicy n ops = nullOut n ops := by
  rw [nullPolicy, nullToken_eq_resultOf]; rfl

theorem carried_of_null (ops : List Token) (h : x.n = true) : carried ops x = nullToken ops := by
  simp [carried, h, nullToken_eq_resultOf]

theorem carried_of_nonNull (ops : List Token) (h : x.n = false) : carried ops x = outToken ops x.payload := by
  simp [carried, h, outToken_eq_resultOf, resultOf]

theorem modeOf_eq_pageMode (p : Page) (v : BitVec 3) : modeOf p v = pageMode p v := by
  have : v.toNat = 5 ↔ v = 5 := by rw [← BitVec.toNat_inj]; rfl
  simp only [modeOf, pageMode, this]

/-! ### The firing rule -/

theorem operand_of_headIs {slot m : Nat} {k : Token} (h : HeadIs p slot m k) : operand p slot (.q m) = some k := by
  obtain ⟨hhead, hmark⟩ := h
  simp [operand, hhead, hmark]

theorem selector_cases (q : BitVec 2) : q = 0 ∨ q = 1 ∨ q = 2 ∨ q = 3 := by decide +revert

/-- The source of B that the selector names (R158). -/
def bSource (q : BitVec 2) : Src := match q.toNat with | 0 => .q 1 | 1 => .k 0 | 2 => .k 1 | _ => .q 2

/-- The source of C: `q2`, or `k2` where B is `q2` (R158). -/
def cSource (q : BitVec 2) : Src := if q.toNat = 3 then .k 2 else .q 2

theorem operand_bSource {slot : Nat} (h : if q = 0 then HeadIs p slot 1 y else if q = 3 then HeadIs p slot 2 y
    else y = { payload := elemConst p.image slot (q.toNat - 1) }) : operand p slot (bSource q) = some y := by
  obtain rfl | rfl | rfl | rfl := selector_cases q
  · exact operand_of_headIs h
  · exact congrArg some (Eq.symm h)
  · exact congrArg some (Eq.symm h)
  · exact operand_of_headIs h

theorem operand_cSource {slot : Nat} {z : Token} (h : if q = 3 then z = { payload := elemConst p.image slot 2 }
    else HeadIs p slot 2 z) : operand p slot (cSource q) = some z := by
  obtain rfl | rfl | rfl | rfl := selector_cases q
  · exact operand_of_headIs h
  · exact operand_of_headIs h
  · exact operand_of_headIs h
  · exact congrArg some (Eq.symm h)

theorem operands_cons {slot : Nat} {src : Src} {srcs : List Src} {k : Token} (hk : operand p slot src = some k)
    (hks : operands p slot srcs = some ops) : operands p slot (src :: srcs) = some (k :: ops) := by
  simp [operands, hk, hks]

/-- An element of one to three operands reads those that its selector names (R158). -/
theorem operands_sources {slot : Nat} (ho : Operands p slot q ops) (hlo : ops ≠ []) (hhi : ops.length ≤ 3) :
    operands p slot (sources ops.length q) = some ops := by
  obtain ⟨hA, hB, hC⟩ := ho
  match ops, hlo, hhi with
  | [x], _, _ => exact operands_cons (operand_of_headIs (hA x rfl)) rfl
  | [x, y], _, _ => exact operands_cons (operand_of_headIs (hA x rfl)) (operands_cons (operand_bSource (hB y rfl)) rfl)
  | [x, y, z], _, _ =>
    exact operands_cons (operand_of_headIs (hA x rfl))
      (operands_cons (operand_bSource (hB y rfl)) (operands_cons (operand_cSource (hC z rfl)) rfl))

/-- The queues that its operands leave are the ones that the element reads (R157, R158). -/
theorem consume_sources (p : Page) (slot : Nat) {k : Nat} (hlo : k ≠ 0) (hhi : k ≤ 3) (q : BitVec 2) :
    p.consume slot (sources k q) = consumed p slot (queuesRead k q) := by
  match k, hlo, hhi with
  | 1, _, _ => rfl
  | 2, _, _ => obtain rfl | rfl | rfl | rfl := selector_cases q <;> rfl
  | 3, _, _ => obtain rfl | rfl | rfl | rfl := selector_cases q <;> rfl

/-- The firing of an element whose operands are at hand, whatever it computes from them (R157, R181). -/
theorem elementFires_of_fire {f : Page → List Token → ElemReg → Fire} {r : Fire} {k : Nat}
    (ho : Operands p s.curSlot q ops) (hx : exec i s = elemFire i a b (sources k q) s f) (hr : f p ops (p.elem s.curSlot) = r)
    (hk : ops.length = k := by rfl) (hlo : k ≠ 0 := by decide) (hhi : k ≤ 3 := by decide) :
    ElementFires s p i a b (queuesRead k q) r.a r.b r.flags r.reg := by
  subst hk
  intro hready hroom
  rw [hx, elemFire_fired hready (operands_sources ho (by simpa using hlo) hhi) hr hroom]
  refine ⟨_, rfl, ?_⟩
  rw [State.fired, ← consume_sources p s.curSlot hlo hhi, State.setPage, State.chargePage_frame]
  simp [stick, State.fires, moved]

/-- A firing that sends the same tokens to both consumers. -/
abbrev Emits (s : State) (p : Page) (i : Instr) (a b : BitVec 9) (arity : Nat) (q : BitVec 2) (out : List Token)
    (reg : ElemReg := p.elem s.curSlot) (flags : Flags := {}) : Prop :=
  ElementFires s p i a b (queuesRead arity q) out out flags reg

/-- A firing of charge class `cls` that sends the same tokens to both consumers. -/
theorem emits_of_toBoth (cls : Nat) {f : Page → List Token → ElemReg → Fire} {out : List Token} {reg : ElemReg} {flags : Flags}
    {k : Nat} (ho : Operands p s.curSlot q ops) (hx : exec i s = elemFire i a b (sources k q) s f)
    (hr : f p ops (p.elem s.curSlot) = toBoth out cls reg flags)
    (hk : ops.length = k := by rfl) (hlo : k ≠ 0 := by decide) (hhi : k ≤ 3 := by decide) :
    Emits s p i a b k q out reg flags :=
  elementFires_of_fire ho hx hr hk hlo hhi

/-- A firing that follows the null policy (R159). -/
theorem emits_nullOut (cls : Nat) {f : Page → List Token → ElemReg → Fire} {reg : ElemReg} {k : Nat}
    (ho : Operands p s.curSlot q ops) (hx : exec i s = elemFire i a b (sources k q) s f)
    (hr : f p ops (p.elem s.curSlot) = toBoth (nullPolicy n ops) cls reg)
    (hk : ops.length = k := by rfl) (hlo : k ≠ 0 := by decide) (hhi : k ≤ 3 := by decide) :
    Emits s p i a b k q (nullOut n ops) reg :=
  nullPolicy_eq_nullOut n ops ▸ emits_of_toBoth cls ho hx hr hk hlo hhi

/-! ### Encodings -/

/-- The word of an element instruction without a variant: its code and its four fields (R43). -/
def flowWord (code : Nat) (a b : BitVec 9) (q : BitVec 2) (n : BitVec 1) : Nat :=
  code * 2 ^ 24 + (a.toNat * 2 ^ 15 + b.toNat * 2 ^ 6 + q.toNat * 2 ^ 4 + n.toNat * 2 ^ 3)

theorem flowWord_eq (code : Nat) (a b : BitVec 9) (q : BitVec 2) (n : BitVec 1) :
    flowWord code a b q n = code * 2 ^ 24 + a.toNat * 32768 + b.toNat * 64 + q.toNat * 16 + n.toNat * 8 := by
  unfold flowWord; omega

theorem encodeNat_steer (a b : BitVec 9) (q : BitVec 2) (n : BitVec 1) : encodeNat (.steer a b q n) = [flowWord 0x41 a b q n] := by
  rw [flowWord_eq]; rfl
theorem encodeNat_gate (a b : BitVec 9) (q : BitVec 2) (n : BitVec 1) : encodeNat (.gate a b q n) = [flowWord 0x43 a b q n] := by
  rw [flowWord_eq]; rfl
theorem encodeNat_cnt (a b : BitVec 9) (q : BitVec 2) (n : BitVec 1) : encodeNat (.cnt a b q n) = [flowWord 0x49 a b q n] := by
  rw [flowWord_eq]; rfl

/-! ### The elements' own operations -/

theorem exec_tagset : exec (.tagset a b q n) s = execTagset a b q n s := rfl
theorem exec_pass : exec (.pass a b q n) s = execPass a b q n s := rfl
theorem exec_ends : exec (.ends a b q n) s = execEnds a b q n s := rfl
theorem exec_steer : exec (.steer a b q n) s = execSteer a b q n s := rfl
theorem exec_merge : exec (.merge a b q n) s = execMerge a b q n s := rfl
theorem exec_gate : exec (.gate a b q n) s = execGate a b q n s := rfl
theorem exec_dup : exec (.dup a b q n) s = execDup a b q n s := rfl
theorem exec_acc : exec (.acc a b q n v) s = execAcc a b q n v s := rfl
theorem exec_cnt : exec (.cnt a b q n) s = execCnt a b q n s := rfl

/-- A `merge` of a constant B is a `pass` (R172). -/
theorem exec_merge_of_const (h : q = 1 ∨ q = 2) : exec (.merge a b q n) s =
    elemFire (.merge a b q n) a b (sources 1 q) s fun _ ops reg =>
      if anyNull ops then toBoth (nullPolicy n ops) 0x17 reg else toBoth [opn ops 0] 0x16 reg := by
  have h : q.toNat = 1 ∨ q.toNat = 2 := h.imp (congrArg BitVec.toNat) (congrArg BitVec.toNat)
  rw [exec_merge, execMerge, if_pos h]

/-- The firing of a `merge` that reads both its arms from queues, by what stands there (R172). -/
def mergeFire (n : BitVec 1) (ops : List Token) (reg : ElemReg) : Fire :=
  let x : Token := { opn ops 0 with e := highE ops }
  let y : Token := { opn ops 1 with e := highE ops }
  match x.n, y.n with
  | true, true => toBoth (nullPolicy n ops) 0x17 reg
  | false, true => toBoth [x] 0x16 reg
  | true, false => toBoth [y] 0x16 reg
  | false, false => toBoth [x] 0x16 { reg with second := some y }

theorem exec_merge_of_queues (h : q = 0 ∨ q = 3) : exec (.merge a b q n) s =
    elemFire (.merge a b q n) a b (sources 2 q) s fun _ => mergeFire n := by
  have h : ¬(q.toNat = 1 ∨ q.toNat = 2) := by obtain rfl | rfl := h <;> decide
  rw [exec_merge, execMerge, if_neg h]
  rfl

/-! ### `tagset`, `ends` and `pass` (R170) -/

theorem tagset_emits_null (ho : Operands p s.curSlot q [x, y]) (h : y.n = true ∨ x.n = true ∧ n = 1) :
    Emits s p (.tagset a b q n) a b 2 q (nullOut n [x, y]) :=
  emits_nullOut 0x17 ho exec_tagset (if_pos (by simpa using h))

theorem tagset_emits (ho : Operands p s.curSlot q [x, y]) (hy : y.n = false) (hx : x.n = true → n = 0) :
    Emits s p (.tagset a b q n) a b 2 q [{ carried [x, y] x with t := y.payload.toNat % 32 }] := by
  cases hn : x.n with
  | true => exact emits_of_toBoth 0x17 ho exec_tagset (by simp [hy, hn, hx hn, carried_of_null])
  | false => exact emits_of_toBoth 0x16 ho exec_tagset (by simp [hy, hn, carried_of_nonNull])

theorem ends_emits_null (ho : Operands p s.curSlot q [x, y]) (h : y.n = true ∨ x.n = true ∧ n = 1) :
    Emits s p (.ends a b q n) a b 2 q (nullOut n [x, y]) :=
  emits_nullOut 0x17 ho exec_ends (if_pos (by simpa using h))

theorem ends_emits (ho : Operands p s.curSlot q [x, y]) (hy : y.n = false) (hx : x.n = true → n = 0) :
    Emits s p (.ends a b q n) a b 2 q [{ carried [x, y] x with e := max (max x.e y.e) (y.payload.toNat % 4) }] := by
  cases hn : x.n with
  | true => exact emits_of_toBoth 0x17 ho exec_ends (by simp [hy, hn, hx hn, carried_of_null])
  | false => exact emits_of_toBoth 0x16 ho exec_ends (by simp [hy, hn, carried_of_nonNull])

/-- An element that passes its one token on, as `pass` and a `merge` of a constant B do (R170, R172). -/
theorem emits_of_passed (ho : Operands p s.curSlot q [x])
    (hx : exec i s = elemFire i a b (sources 1 q) s fun _ ops reg =>
      if anyNull ops then toBoth (nullPolicy n ops) 0x17 reg else toBoth [opn ops 0] 0x16 reg) :
    Emits s p i a b 1 q (if x.n then nullOut n [x] else [x]) := by
  cases hn : x.n with
  | true => exact emits_nullOut 0x17 ho hx (if_pos (by simpa using hn))
  | false => exact emits_of_toBoth 0x16 ho hx (if_neg (by simpa using hn))

theorem pass_emits (ho : Operands p s.curSlot q [x]) :
    Emits s p (.pass a b q n) a b 1 q (if x.n then nullOut n [x] else [x]) :=
  emits_of_passed ho exec_pass

/-! ### `steer`, `gate` and `merge` (R171 to R173) -/

theorem steer_emits_null (ho : Operands p s.curSlot q [x, y]) (h : x.n = true ∨ y.n = true) :
    Emits s p (.steer a b q n) a b 2 q (nullOut n [x, y]) :=
  emits_nullOut 0x17 ho exec_steer (if_pos (by simpa using h))

/-- What the arm of a `steer` that is not taken receives (R171). -/
def otherArm (n : BitVec 1) (ops : List Token) : List Token := if n = 0 then [{ resultOf ops 0 with n := true }] else []

theorem otherArm_eq (n : BitVec 1) (ops : List Token) : otherArm n ops = if n = 0 then [nullToken ops] else [] := by
  rw [otherArm, nullToken_eq_resultOf]

theorem steer_fires_of_ne (ho : Operands p s.curSlot q [x, y]) (hx : x.n = false) (hy : y.n = false) (h : y.payload ≠ 0) :
    ElementFires s p (.steer a b q n) a b (queuesRead 2 q) [carried [x, y] x] (otherArm n [x, y]) {} (p.elem s.curSlot) := by
  refine elementFires_of_fire (r := { a := [carried [x, y] x], b := otherArm n [x, y], cls := 0x16, reg := _ }) ho exec_steer ?_
  rw [otherArm_eq, carried_of_nonNull _ hx]
  exact (if_neg (by simp [hx, hy])).trans (if_pos h)

theorem steer_fires_of_zero (ho : Operands p s.curSlot q [x, y]) (hx : x.n = false) (hy : y.n = false) (h : ¬y.payload ≠ 0) :
    ElementFires s p (.steer a b q n) a b (queuesRead 2 q) (otherArm n [x, y]) [carried [x, y] x] {} (p.elem s.curSlot) := by
  refine elementFires_of_fire (r := { a := otherArm n [x, y], b := [carried [x, y] x], cls := 0x16, reg := _ }) ho exec_steer ?_
  rw [otherArm_eq, carried_of_nonNull _ hx]
  exact (if_neg (by simp [hx, hy])).trans (if_neg h)

theorem gate_emits_null (ho : Operands p s.curSlot q [x, y]) (h : x.n = true ∨ y.n = true) :
    Emits s p (.gate a b q n) a b 2 q (nullOut n [x, y]) :=
  emits_nullOut 0x17 ho exec_gate (if_pos (by simpa using h))

theorem gate_emits_of_ne (ho : Operands p s.curSlot q [x, y]) (hx : x.n = false) (hy : y.n = false) (h : y.payload ≠ 0) :
    Emits s p (.gate a b q n) a b 2 q [carried [x, y] x] := by
  rw [carried_of_nonNull _ hx]
  exact emits_of_toBoth 0x16 ho exec_gate ((if_neg (by simp [hx, hy])).trans (if_pos h))

theorem gate_emits_of_zero (ho : Operands p s.curSlot q [x, y]) (hx : x.n = false) (hy : y.n = false) (h : ¬y.payload ≠ 0) :
    Emits s p (.gate a b q n) a b 2 q (nullOut n [x, y]) :=
  emits_nullOut 0x16 ho exec_gate ((if_neg (by simp [hx, hy])).trans (if_neg h))

theorem merge_emits_of_const (hq : q = 1 ∨ q = 2) (ho : Operands p s.curSlot q [x]) :
    Emits s p (.merge a b q n) a b 1 q (if x.n then nullOut n [x] else [x]) :=
  emits_of_passed ho (exec_merge_of_const hq)

theorem merge_emits_null (hq : q = 0 ∨ q = 3) (ho : Operands p s.curSlot q [x, y]) (hx : x.n = true) (hy : y.n = true) :
    Emits s p (.merge a b q n) a b 2 q (nullOut n [x, y]) :=
  emits_nullOut 0x17 ho (exec_merge_of_queues hq) (by simp [mergeFire, hx, hy])

theorem merge_emits_A (hq : q = 0 ∨ q = 3) (ho : Operands p s.curSlot q [x, y]) (hx : x.n = false) (hy : y.n = true) :
    Emits s p (.merge a b q n) a b 2 q [{ x with e := max x.e y.e }] :=
  emits_of_toBoth 0x16 ho (exec_merge_of_queues hq) (by simp [mergeFire, hx, hy])

theorem merge_emits_B (hq : q = 0 ∨ q = 3) (ho : Operands p s.curSlot q [x, y]) (hx : x.n = true) (hy : y.n = false) :
    Emits s p (.merge a b q n) a b 2 q [{ y with e := max x.e y.e }] :=
  emits_of_toBoth 0x16 ho (exec_merge_of_queues hq) (by simp [mergeFire, hx, hy])

theorem merge_emits_both (hq : q = 0 ∨ q = 3) (ho : Operands p s.curSlot q [x, y]) (hx : x.n = false) (hy : y.n = false) :
    Emits s p (.merge a b q n) a b 2 q [{ x with e := max x.e y.e }]
      { p.elem s.curSlot with second := some { y with e := max x.e y.e } } :=
  emits_of_toBoth 0x16 ho (exec_merge_of_queues hq) (by simp [mergeFire, hx, hy])

/-! ### `dup`, `acc` and `cnt` (R174 to R176) -/

theorem dup_emits_null (ho : Operands p s.curSlot q [x, y]) (h : y.n = true ∨ x.n = true ∧ n = 1) :
    Emits s p (.dup a b q n) a b 2 q (nullOut n [x, y]) :=
  emits_nullOut 0x17 ho exec_dup (if_pos (by simpa using h))

/-- What a `dup` copies is A's token, null where A is null (R174). -/
theorem copied_eq_carried (ops : List Token) (x : Token) :
    (if x.n then nullToken ops else outToken ops x.payload) = carried ops x := by
  cases hn : x.n with
  | true => exact (carried_of_null ops hn).symm
  | false => exact (carried_of_nonNull ops hn).symm

/-- A non-null B, with a null A under propagate alone, is no matter of the null policy (R170, R174). -/
theorem not_nulled (hy : y.n = false) (hx : x.n = true → n = 0) : ¬(y.n || (x.n && decide (n = 1))) = true := by
  cases hn : x.n with
  | true => simp [hy, hx hn]
  | false => simp [hy]

theorem dup_emits_of_zero (ho : Operands p s.curSlot q [x, y]) (hy : y.n = false) (hx : x.n = true → n = 0)
    (hm : y.payload.toNat % 65536 = 0) :
    Emits s p (.dup a b q n) a b 2 q (if topRank [x, y] ≠ 0 then [{ resultOf [x, y] 0 with n := true }] else []) := by
  rw [← nullToken_eq_resultOf]
  exact emits_of_toBoth _ ho exec_dup ((if_neg (not_nulled hy hx)).trans (if_pos hm))

theorem dup_emits_of_one (ho : Operands p s.curSlot q [x, y]) (hy : y.n = false) (hx : x.n = true → n = 0)
    (hm : y.payload.toNat % 65536 = 1) : Emits s p (.dup a b q n) a b 2 q [carried [x, y] x] := by
  rw [← copied_eq_carried]
  exact emits_of_toBoth _ ho exec_dup
    ((if_neg (not_nulled hy hx)).trans ((if_neg (by simp [hm])).trans (if_pos hm)))

theorem dup_emits_of_more (ho : Operands p s.curSlot q [x, y]) (hy : y.n = false) (hx : x.n = true → n = 0)
    (hm : 2 ≤ y.payload.toNat % 65536) :
    Emits s p (.dup a b q n) a b 2 q [{ carried [x, y] x with e := 0 }]
      { p.elem s.curSlot with dupTok := carried [x, y] x, dupLeft := y.payload.toNat % 65536 - 1 } := by
  have hzero : ¬y.payload.toNat % 65536 = 0 := by omega
  have hone : ¬y.payload.toNat % 65536 = 1 := by omega
  rw [← copied_eq_carried]
  exact emits_of_toBoth _ ho exec_dup ((if_neg (not_nulled hy hx)).trans ((if_neg hzero).trans (if_neg hone)))

/-- What an `acc` emits: its sum, or a null token where the sum is poisoned (R175). -/
theorem sumToken_eq_resultOf (ops : List Token) (bad : Bool) (sum : Half) :
    (if bad then nullToken ops else outToken ops sum) = { resultOf ops (if bad then 0 else sum) with n := bad } := by
  cases bad with
  | true => exact nullToken_eq_resultOf ops
  | false => exact outToken_eq_resultOf ops sum

theorem acc_emits (ho : Operands p s.curSlot q [x]) :
    let reg := p.elem s.curSlot
    let k := (elemConst p.image s.curSlot 1).toNat % 4
    let sum := fpAdd 23 reg.sum.toNat x.payload.toNat (pageMode p v)
    let s1 : Half := if x.n then reg.sum else BitVec.ofNat 32 sum.1
    let bad := reg.poisoned || (x.n && decide (n = 0))
    Emits s p (.acc a b q n v) a b 1 q
      (if k = 0 ∨ k ≤ x.e then [({ resultOf [x] (if bad then 0 else s1) with n := bad } : Token)] else [])
      (if k ≠ 0 ∧ k ≤ x.e then { reg with sum := 0, poisoned := false } else { reg with sum := s1, poisoned := bad })
      (if x.n then {} else sum.2) := by
  intro reg k sum s1 bad
  refine emits_of_toBoth 0x16 ho exec_acc ?_
  rw [← sumToken_eq_resultOf]
  simp only [modeOf_eq_pageMode, opn_zero]
  rfl

/-- The count after a firing of `cnt`: it wraps at a non-null bound that it has reached (R176). -/
theorem nextCount_eq (c : Half) (y : Token) :
    (if !y.n && decide (y.payload ≠ 0 ∧ c = y.payload) then (0 : Half) else c) =
      if y.n = false ∧ y.payload ≠ 0 ∧ c = y.payload then 0 else c := by
  simp

theorem cnt_emits (ho : Operands p s.curSlot q [x, y]) (hx : x.n = false) (hy : y.n = false) :
    let reg := p.elem s.curSlot
    let c1 := reg.count + 1
    Emits s p (.cnt a b q n) a b 2 q [resultOf [x, y] reg.count]
      { reg with count := if y.n = false ∧ y.payload ≠ 0 ∧ c1 = y.payload then 0 else c1 } := by
  intro reg c1
  rw [← nextCount_eq, ← outToken_eq_resultOf]
  exact emits_of_toBoth 0x16 ho exec_cnt (if_neg (by simp [hx, hy]))

theorem cnt_emits_null (ho : Operands p s.curSlot q [x, y]) (h : x.n = true ∨ y.n = true) :
    let reg := p.elem s.curSlot
    let c1 := reg.count + 1
    Emits s p (.cnt a b q n) a b 2 q (nullOut n [x, y])
      (if n = 0 then { reg with count := if y.n = false ∧ y.payload ≠ 0 ∧ c1 = y.payload then 0 else c1 } else reg) := by
  intro reg c1
  rw [← nextCount_eq]
  exact emits_nullOut 0x17 ho exec_cnt (if_pos (by simpa using h))

end

/-- Settles O28: each clause is what the element of its rule emits, case by case of its operands (R170 to R176). -/
theorem routingAndRegisterElements : Obligations.RoutingAndRegisterElements := by
  refine ⟨fun s p a b q n x y => ⟨?words, fun h1 => ?one, fun ho => ⟨fun h => ?passNull, fun hy hx => ?pass,
      fun h => ?routeNull, fun hx hy => ⟨fun h => ?routeTaken, fun h => ?routeOther⟩, fun hq => ?merge⟩⟩,
    fun s p a b q n v x y => ⟨fun ho hy hx => ?dup, fun ho h => dup_emits_null ho h, fun ho => ?cnt, fun ho => acc_emits ho⟩⟩
  case words => exact ⟨encodeNat_steer .., encodeNat_gate .., encodeNat_cnt ..⟩
  case one => exact ⟨pass_emits h1, fun hq => merge_emits_of_const hq h1⟩
  case passNull => exact ⟨tagset_emits_null ho h, ends_emits_null ho h⟩
  case pass => exact ⟨tagset_emits ho hy hx, ends_emits ho hy hx⟩
  case routeNull => exact ⟨steer_emits_null ho h, gate_emits_null ho h⟩
  case routeTaken => exact ⟨steer_fires_of_ne ho hx hy h, gate_emits_of_ne ho hx hy h⟩
  case routeOther => exact ⟨steer_fires_of_zero ho hx hy (not_not.2 h), gate_emits_of_zero ho hx hy (not_not.2 h)⟩
  case merge =>
    exact ⟨merge_emits_A hq ho, merge_emits_B hq ho, merge_emits_null hq ho, merge_emits_both hq ho⟩
  case dup => exact ⟨dup_emits_of_zero ho hy hx, dup_emits_of_one ho hy hx, dup_emits_of_more ho hy hx⟩
  case cnt => exact ⟨cnt_emits ho, cnt_emits_null ho⟩

end Sys2Proof.Claims
end

section
/-! Traps and the return from them (R355 to R364): what each part of a trap keeps of the state, what a stop with a record
leaves, and the settled statements. -/

namespace Sys2Proof.Machine

/-! ### Traces, withdrawn waits and publications -/

/-- A withdrawn wait touches the tile of a `bar` or the waiters of the queues (R84). -/
theorem State.withdraw_frame (s : State) (t : Thread) :
    s.withdraw t = { s with tiles := (s.withdraw t).tiles, queues := (s.withdraw t).queues } := by
  unfold State.withdraw
  split
  · rfl
  · split <;> rfl

/-- The trace event of a trap and the withdrawn wait, with which every trap begins, touch tiles and waiters alone. -/
theorem State.withdraw_traceTrap_frame (s : State) (t : Thread) (cause : Nat) (pc : Word) (q : Half) (v : Word) :
    (s.traceTrap t cause pc q v).withdraw t = { s with
      tiles := ((s.traceTrap t cause pc q v).withdraw t).tiles, queues := ((s.traceTrap t cause pc q v).withdraw t).queues } := by
  rw [State.withdraw_frame]
  unfold State.traceTrap
  rw [State.trace_frame]

theorem State.traceTrap_cmds (s : State) (t : Thread) (cause : Nat) (pc : Word) (q : Half) (v : Word) (n : Nat) :
    ((s.traceTrap t cause pc q v).tile n).cmds = (s.tile n).cmds := by
  have h : Claims.TraceOnly (s.tile n) ((s.traceTrap t cause pc q v).tile n) := Claims.traceOnly_trace ..
  rw [h]
  rfl

/-- The charges of a publication touch meters, accounts and the counter of free values alone (R151). -/
theorem State.chargeBuffered_frame (s : State) (t : Thread) (buf : List BufByte) :
    s.chargeBuffered t buf = { s with
      meters := (s.chargeBuffered t buf).meters, accounts := (s.chargeBuffered t buf).accounts
      fresh := (s.chargeBuffered t buf).fresh } := by
  unfold State.chargeBuffered
  induction bufLines buf generalizing s with
  | nil => rfl
  | cons e r ih =>
    rw [List.foldl_cons, ih]
    split
    · rw [State.chargeMove_frame s]
    · rw [State.chargeMove_frame s]
    · split
      · rfl
      · rw [State.chargePath_frame s]
    · rfl

@[simp] theorem State.part_publish (s : State) (cells : List (Nat × Byte)) (blocks : List (Nat × BitVec 16)) (n : Nat) :
    (s.publish cells blocks).part n = s.part n := by
  unfold State.publish
  split <;> rfl

@[simp] theorem State.publish_dev (s : State) (cells : List (Nat × Byte)) (blocks : List (Nat × BitVec 16)) :
    (s.publish cells blocks).dev = s.dev := by
  unfold State.publish
  split <;> rfl

theorem State.publishAll_mem (s : State) (t : Thread) : (s.publishAll t).1.mem = s.mem.write (bufCells t.buf) := by
  unfold State.publishAll
  dsimp only
  split
  · next h => rw [h]; rfl
  · rw [State.publish_mem, State.chargeBuffered_frame]

@[simp] theorem State.part_publishAll (s : State) (t : Thread) (n : Nat) : (s.publishAll t).1.part n = s.part n := by
  unfold State.publishAll
  dsimp only
  split
  · rfl
  · rw [State.part_publish, State.chargeBuffered_frame]; rfl

@[simp] theorem State.publishAll_dev (s : State) (t : Thread) : (s.publishAll t).1.dev = s.dev := by
  unfold State.publishAll
  dsimp only
  split
  · rfl
  · rw [State.publish_dev, State.chargeBuffered_frame]

/-! ### Records: what they keep of what is owed (R362, R364) -/

theorem State.owed_queueRecord (s : State) (part n : Nat) (r : Record) :
    ((s.queueRecord part r).1.part n).owed = (s.part n).owed := by
  unfold State.queueRecord
  by_cases h : n = part
  · subst h; rw [State.part_setPart]
  · rw [State.part_setPart_ne _ _ h]

@[simp] theorem State.part_errorLog (s : State) (r : Record) (n : Nat) : (s.errorLog r).part n = s.part n := by
  simp only [State.errorLog, State.part]

theorem State.owed_memUe (s : State) (pa access n : Nat) : ((s.memUe pa access).part n).owed = (s.part n).owed := by
  unfold State.memUe State.errorQueued
  rw [State.part_errorLog]
  cases s.ownerOf pa with
  | none => rfl
  | some p => exact State.owed_queueRecord ..

theorem State.part_lookup (s : State) (die part va n : Nat) : (s.lookup die part va).1.part n = s.part n := by
  rw [State.lookup_frame]; rfl

theorem State.part_reserveArray (s : State) (part pte pa n : Nat) : (s.reserveArray part pte pa).part n = s.part n := by
  unfold State.reserveArray
  split <;> rfl

/-- A translation may record an uncorrectable error (R149), and owes nobody anything for it. -/
theorem State.owed_translate (s : State) (die part level : Nat) (engine : Bool) (acc : Access) (va len n : Nat) :
    ((s.translate die part level engine acc va len).1.part n).owed = (s.part n).owed := by
  have hl := State.part_lookup s die part va n
  unfold State.translate
  split
  · rfl
  · generalize s.lookup die part va = l at hl
    obtain ⟨s1, fault | ⟨pte, lvl⟩⟩ := l
    · cases fault with
      | absent => exact congrArg Partition.owed hl
      | reserved => exact congrArg Partition.owed hl
      | ue pa => exact (State.owed_memUe ..).trans (congrArg Partition.owed hl)
    · refine Eq.trans ?_ (congrArg Partition.owed hl)
      dsimp only
      split_ifs
      · rw [State.part_reserveArray]
      · rw [State.part_reserveArray]
      · rw [State.owed_memUe, State.part_reserveArray]
      · rw [State.part_reserveArray]

theorem State.owed_flushRecord (s : State) (part n : Nat) : ((s.flushRecord part).part n).owed = (s.part n).owed := by
  have translated {s s' : State} {va len : Nat} {r : Except Miss Nat}
      (h : s.translate 0 part 1 false .write va len = (s', r)) : (s'.part n).owed = (s.part n).owed := by
    rw [← State.owed_translate s 0 part 1 false .write va len n, h]
  unfold State.flushRecord
  extract_lets p base lsize
  split
  · rfl
  · split
    · rfl
    · split
      · next h => exact translated h
      · next s1 pa h =>
        rw [← translated h]
        extract_lets tail head slot
        split
        · split
          · rfl
          · exact State.owed_memUe ..
        · split
          · rfl
          · split
            · next h2 => exact translated h2
            · next s2 pr h2 =>
              rw [← translated h2]
              by_cases hn : n = part
              · subst hn; rw [State.part_setPart, State.part_publish]
              · rw [State.part_setPart_ne _ _ hn, State.part_publish]

theorem State.owed_flushRecords (s : State) (part n k : Nat) : ((s.flushRecords part k).part n).owed = (s.part n).owed := by
  induction k generalizing s with
  | zero => rfl
  | succ k ih => rw [State.flushRecords, ih, State.owed_flushRecord]

theorem State.owed_addRecord (s : State) (part n : Nat) (r : Record) :
    ((s.addRecord part r).1.part n).owed = (s.part n).owed :=
  (State.owed_flushRecords ..).trans (State.owed_queueRecord ..)

/-- Without a record ring no record is written (R362). -/
theorem State.flushRecords_of_no_ring (s : State) {part : Nat} (h : (s.part part).recRing = 0) (k : Nat) :
    s.flushRecords part k = s := by
  have one : s.flushRecord part = s := by
    unfold State.flushRecord
    dsimp only
    split
    · rfl
    · exact if_pos (by rw [h]; rfl)
  induction k with
  | zero => rfl
  | succ k ih => rw [State.flushRecords, one, ih]

theorem State.addRecord_of_no_ring (s : State) {part : Nat} (h : (s.part part).recRing = 0) (r : Record) :
    s.addRecord part r = s.queueRecord part r := by
  have hq : ((s.queueRecord part r).1.part part).recRing = 0 := by
    unfold State.queueRecord; rw [State.part_setPart]; exact h
  exact Prod.ext (State.flushRecords_of_no_ring _ hq _) rfl

/-! ### The stop of a thread with a record (R358) -/

/-- The record of a thread that stops (R358, R363). -/
def stopRecord (t : Thread) (d : Pending) : Record := { cause := d.cause, kind := 1, value := d.tval, name := t.nameAt d.tpc d.tseq }

/-- The thread that a stop under an identifier leaves (R358, R365). -/
def stoppedThread (t : Thread) (id : Nat) : Thread :=
  { t with state := .stopped, waitCount := 0, buf := [], recordId := id, held := none, copying := none, stopDue := none }

/-- The stop of a thread that neither waits nor has a region open: its stores are published, its record is added, and
the thread is owed to the identifier. -/
theorem State.stopNow_eq (s : State) {t : Thread} (hw : t.wait = none) (hr : t.region = none) (d : Pending) :
    let a := (s.publishAll t).1.addRecord t.part (stopRecord t d)
    s.stopNow t d = (a.1.setPart t.part { a.1.part t.part with
      owed := (a.2, .thread t.num) :: (a.1.part t.part).owed }).setThread (stoppedThread t a.2) := by
  have hh : s.halt { t with stopDue := none } = ((s.publishAll t).1, { stoppedThread t t.recordId with stopDue := none }) := by
    simp only [State.halt, State.withdraw, stoppedThread, hw, hr]
    rfl
  unfold State.stopNow
  rw [hh]
  rfl

section

variable (s : State) {t : Thread} (hw : t.wait = none) (hr : t.region = none) (d : Pending)

include hw hr

theorem State.thread?_stopNow : (s.stopNow t d).thread? t.num = some (stoppedThread t (s.part t.part).recNext) := by
  rw [State.stopNow_eq s hw hr, ← State.part_publishAll s t]
  exact State.thread?_setThread ..

theorem State.owed_stopNow :
    ((s.stopNow t d).part t.part).owed = ((s.part t.part).recNext, .thread t.num) :: (s.part t.part).owed := by
  rw [State.stopNow_eq s hw hr, State.part_setThread, State.part_setPart, State.owed_addRecord, State.part_publishAll,
    ← State.part_publishAll s t]
  rfl

theorem State.mem_stopNow (h0 : (s.part t.part).recRing = 0) : (s.stopNow t d).mem = s.mem.write (bufCells t.buf) := by
  rw [State.stopNow_eq s hw hr, State.addRecord_of_no_ring _ (by rwa [State.part_publishAll]), ← State.publishAll_mem]
  rfl

theorem State.backlog_stopNow (h0 : (s.part t.part).recRing = 0) : ((s.stopNow t d).part t.part).backlog =
    (s.part t.part).backlog ++ [{ stopRecord t d with id := (s.part t.part).recNext, time := s.dev.time }] := by
  rw [State.stopNow_eq s hw hr, State.addRecord_of_no_ring _ (by rwa [State.part_publishAll]), State.part_setThread,
    State.part_setPart]
  simp only [State.queueRecord, State.part_setPart, State.part_publishAll, State.publishAll_dev]

end

theorem Thread.syncWait_of_no_sync {t : Thread} (h : ∀ w, t.wait = some w → w.instr ≠ .phaseSync) : t.syncWait = none := by
  simpa [Thread.syncWait, Option.filter_eq_none_iff] using h

/-- Where a thread does not wait, its stop waits for its accepted commands alone (R284, R308, R315). -/
theorem State.stopWaits_of_no_wait (s : State) {t : Thread} (hw : t.wait = none) :
    s.stopWaits t = (s.tile (t.num / 4)).cmds.any fun c => decide (c.name.thread = t.num) := by
  simp [State.stopWaits, Thread.syncWait, Thread.tile, hw]

/-- The stop of a thread outside a region that is not in a `phase.sync`: it waits for accepted commands, or is made at once. -/
theorem State.stopWithRecord_eq (s : State) {t : Thread} (hr : t.region = none) (hs : t.syncWait = none)
    (cause : Nat) (value tpc : Word) (tseq : Half) (rpc : Word) :
    s.stopWithRecord t cause value tpc tseq rpc =
      if (s.tile (t.num / 4)).cmds.any fun c => decide (c.name.thread = t.num) then
        ((s.traceTrap t cause tpc tseq value).withdraw t).setThread { t with
          state := .waiting, wait := none, waitCount := 0, pc := rpc, stopDue := some ⟨cause, tpc, tseq, value⟩ }
      else ((s.traceTrap t cause tpc tseq value).withdraw t).stopNow { t with pc := rpc, wait := none } ⟨cause, tpc, tseq, value⟩ := by
  unfold State.stopWithRecord
  dsimp only
  rw [hs, State.stopWaits_of_no_wait _ rfl, State.traceTrap_cmds, hr]
  rfl

/-! ### Taking a trap (R357, R358) -/

theorem State.takeTrap_of_handled (s : State) {t : Thread} (hl : t.level = 0) (hh : t.hnd = false) (hv : (s.part t.part).vec ≠ 0)
    (cause : Nat) (value tpc : Word) (tseq : Half) (rpc : Word) :
    s.takeTrap t cause value tpc tseq rpc = ((s.traceTrap t cause tpc tseq value).withdraw t).setThread
      (Claims.enteredAtS t (s.part t.part).vec cause value tpc tseq rpc) :=
  if_pos ⟨hl, hh, hv⟩

theorem State.takeTrap_of_not_handled (s : State) {t : Thread} (h : t.level ≠ 0 ∨ t.hnd = true ∨ (s.part t.part).vec = 0)
    (cause : Nat) (value tpc : Word) (tseq : Half) (rpc : Word) :
    s.takeTrap t cause value tpc tseq rpc = s.stopWithRecord t cause value tpc tseq rpc :=
  if_neg fun ⟨hl, hh, hv⟩ => h.elim (· hl) fun h => h.elim (by simp [hh]) hv

/-! ### The return from a trap (R361) -/

/-- The rule that `tret` holds the saved status to (R361). -/
abbrev SavedStatusValid (s : State) (t : Thread) : Prop :=
  t.tsw.toNat < 2 ^ 12 ∧ t.tsw.toNat % 4 ≠ 3 ∧ t.tsw.toNat / 4 % 2 = 0 ∧
    (t.tsw.toNat / 32 % 128 = 64 ∨ t.tsw.toNat / 32 % 128 ∈ (s.part t.part).functions)

/-- The checks of `tret`, in their order (R361). -/
theorem State.returnFromTrap_eq (s : State) (t : Thread) (word0 : Word) : s.returnFromTrap t word0 =
    if t.hnd = false then s.takeTrap t 0x01 word0 t.pc t.seq t.pc
    else if ¬ SavedStatusValid s t then s.stopWithRecord t 0x04 t.tsw t.pc t.seq t.pc
    else if t.level < t.tsw.toNat % 4 then s.stopWithRecord t 0x02 t.tsw t.pc t.seq t.pc
    else if t.rpc.toNat % 4 ≠ 0 then s.stopWithRecord t 0x03 t.rpc t.pc t.seq t.pc
    else s.setThread { t with sw := t.tsw, pc := t.rpc, afterTret := true } := by
  have high : wbits t.tsw 12 52 = 0 ↔ t.tsw.toNat < 2 ^ 12 := by unfold wbits; omega
  unfold State.returnFromTrap
  dsimp only
  refine if_congr Iff.rfl rfl (if_congr ?valid rfl (if_congr ?level rfl rfl))
  case valid =>
    rw [Bool.not_eq_true', ← Bool.not_eq_true, not_iff_not, SavedStatusValid, ← high]
    simp only [Bool.and_eq_true, Bool.or_eq_true, decide_eq_true_eq]
    simp [wbits, and_assoc, or_comm]
  case level => simp [wbits]

@[simp] theorem issuedBy_seq (s : State) (t : Thread) : (issuedBy s t).seq = t.seq := by simp [issuedBy]
@[simp] theorem issuedBy_hnd (s : State) (t : Thread) : (issuedBy s t).hnd = t.hnd := by simp [Thread.hnd]
@[simp] theorem issuedBy_tsw (s : State) (t : Thread) : (issuedBy s t).tsw = t.tsw := by
  simp only [issuedBy, State.begin_]; split <;> rfl
@[simp] theorem issuedBy_rpc (s : State) (t : Thread) : (issuedBy s t).rpc = t.rpc := by
  simp only [issuedBy, State.begin_]; split <;> rfl
@[simp] theorem part_issuedIn (s : State) (t : Thread) (n : Nat) : (issuedIn s t).part n = s.part n := by
  rw [issuedIn_frame]; rfl

@[simp] theorem savedStatusValid_issued (s : State) (t : Thread) :
    SavedStatusValid (issuedIn s t) (issuedBy s t) ↔ SavedStatusValid s t := by simp [SavedStatusValid]

/-! ### `trap`, `dbg.brk` and `tret` (R360, R361, R391) -/

theorem Thread.nextPc_of_one_word (t : Thread) {i : Instr} (hl : lengthBytes i = 4) : t.nextPc i = t.pc + 4 := by
  rw [Thread.nextPc, hl]; rfl

section

variable {s : State} {t : Thread} (ht : Claims.Issues s t)

include ht

theorem exec_trap (c : BitVec 6) : exec (.trap c) s =
    .next ((issuedIn s t).takeTrap (issuedBy s t) 0x08 (word c.toNat) t.pc t.seq (t.pc + 4)) := by
  have hx : exec (.trap c) s = execTrap c s := rfl
  rw [hx, execTrap, issue_next ht.1 ht.2 rfl (Nat.zero_le _), Thread.nextPc_of_one_word _ rfl, issuedBy_pc, issuedBy_seq]

theorem exec_dbgBrk (c : BitVec 6) : exec (.dbgBrk c) s =
    .next ((issuedIn s t).takeTrap (issuedBy s t) 0x09 (word c.toNat) t.pc t.seq (t.pc + 4)) := by
  have hx : exec (.dbgBrk c) s = execDbgBrk c s := rfl
  rw [hx, execDbgBrk, issue_next ht.1 ht.2 rfl (Nat.zero_le _), Thread.nextPc_of_one_word _ rfl, issuedBy_pc, issuedBy_seq]

/-- The checks of `tret` in the state in which it issued. -/
theorem exec_tret : exec .tret s = .next (
    if t.hnd = false then (issuedIn s t).takeTrap (issuedBy s t) 0x01 0xF8010000 t.pc t.seq t.pc
    else if ¬ SavedStatusValid s t then (issuedIn s t).stopWithRecord (issuedBy s t) 0x04 t.tsw t.pc t.seq t.pc
    else if t.level < t.tsw.toNat % 4 then (issuedIn s t).stopWithRecord (issuedBy s t) 0x02 t.tsw t.pc t.seq t.pc
    else if t.rpc.toNat % 4 ≠ 0 then (issuedIn s t).stopWithRecord (issuedBy s t) 0x03 t.rpc t.pc t.seq t.pc
    else (issuedIn s t).setThread { issuedBy s t with sw := t.tsw, pc := t.rpc, afterTret := true }) := by
  have hx : exec .tret s = execTret s := rfl
  have hword : word (firstWord .tret).toNat = 0xF8010000 := rfl
  rw [hx, execTret, issue_next ht.1 ht.2 rfl (Nat.zero_le _), State.returnFromTrap_eq, hword]
  simp only [issuedBy_hnd, issuedBy_tsw, issuedBy_rpc, issuedBy_level, issuedBy_pc, issuedBy_seq, savedStatusValid_issued]

end

end Sys2Proof.Machine

namespace Sys2Proof.Claims

open Sys2Proof Sys2Proof.Machine

/-! ### The settled statements -/

/-- Settles O12: a trap traces and withdraws the wait, then either writes the thread as its entry leaves it, or marks the stop as
due, or publishes the stores and adds the record. -/
theorem trapsEnterTheHandlerOrStopTheThread : Obligations.TrapsEnterTheHandlerOrStopTheThread := by
  refine ⟨fun s t cause value tpc rpc tseq hl hh hv => ?entered, fun s t cause value tpc rpc tseq h hr hs => ?stopped⟩
  case entered =>
    dsimp only
    rw [State.takeTrap_of_handled s hl hh hv, State.withdraw_traceTrap_frame]
    exact ⟨State.thread?_setThread .., fun n hn => State.thread?_setThread_ne _ _ hn, rfl, rfl, rfl, rfl⟩
  case stopped =>
    dsimp only
    rw [State.takeTrap_of_not_handled s h, State.stopWithRecord_eq s hr (Thread.syncWait_of_no_sync hs),
      State.withdraw_traceTrap_frame]
    generalize ((s.traceTrap t cause tpc tseq value).withdraw t).tiles = tiles
    generalize ((s.traceTrap t cause tpc tseq value).withdraw t).queues = queues
    refine ⟨fun free => ?_, fun busy => ?_⟩
    · rw [if_neg (by simpa using free)]
      have hw : { t with pc := rpc, wait := none }.wait = none := rfl
      exact ⟨State.thread?_stopNow _ hw hr _, State.owed_stopNow _ hw hr _, fun h0 => ⟨State.mem_stopNow _ hw hr _ h0,
        _, State.backlog_stopNow _ hw hr _ h0, rfl, rfl, rfl, rfl, rfl, rfl, rfl, rfl⟩⟩
    · rw [if_pos (by simpa using busy)]
      exact ⟨State.thread?_setThread .., rfl, rfl⟩

/-- Settles O13: the software traps are the trap of their cause with the next instruction to resume at, and `tret` makes
its checks in order. -/
theorem softwareTrapsAndTheirReturn : Obligations.SoftwareTrapsAndTheirReturn := by
  refine ⟨fun s t c => ⟨⟨rfl, rfl, rfl⟩, fun ht => ⟨exec_trap ht c, exec_dbgBrk ht c⟩⟩, fun s t ht => ?tret⟩
  intro v acct valid
  have hv : SavedStatusValid s t ↔ valid := Iff.rfl
  rw [exec_tret ht]
  refine ⟨fun hh ok hl ha => ⟨_, rfl, ?returns⟩, fun hh => ?ill, fun hh bad => ?badStatus, fun hh ok hl => ?priv, fun hh ok hl ha => ?align⟩
  case returns =>
    rw [if_neg (by simp [hh]), if_neg (not_not.2 (hv.2 ok)), if_neg (not_lt.2 hl), if_neg (not_not.2 ha)]
    exact (onlyThread_issuedIn s t).setThread rfl
  case ill => rw [if_pos hh]
  case badStatus => rw [if_neg (by simp [hh]), if_pos (mt hv.1 bad)]
  case priv => rw [if_neg (by simp [hh]), if_neg (not_not.2 (hv.2 ok)), if_pos hl]
  case align => rw [if_neg (by simp [hh]), if_neg (not_not.2 (hv.2 ok)), if_neg (not_lt.2 hl), if_pos ha]

end Sys2Proof.Claims
end
